-- ==== Sys2Proof/Word.lean ====
section
/-! DEFINITION. The bit-vector types of the machine (00_scope.md R5, R7). Every value is unsigned. -/

namespace Sys2Proof

/-- One byte: a general register, a timer, a memory cell (R5: XLEN is 8). -/
abbrev Byte := BitVec 8

/-- Sixteen bits: an instruction word, I, pc, a stack entry (R5: ILEN, PCLEN). -/
abbrev Word := BitVec 16

/-- Four bits: a field of an instruction word (R12). -/
abbrev Nibble := BitVec 4

/-- Twelve bits: the immediate NNN (R92). -/
abbrev Imm12 := BitVec 12

/-- The number of a general register, 0 to 15; 15 is VF (R20, R21). -/
abbrev Reg := Fin 16

end Sys2Proof
end

