-- ==== Sys2Proof/Config.lean ====
section
/-! DEFINITION. What an implementation fixes (00_scope.md R5, R6) and the free values. -/

namespace Sys2Proof

/-- FONT_BASE, the address of glyph 0. The spec leaves it OPEN under FONT_BASE + 80 <= 0x200 (R6, R62, D12), so it is a
constant with no body: whatever is proved holds for every base 0 to 432. DESIGN CHOICE, safe (log 1). -/
opaque Config.fontBase : Fin (0x200 - 80 + 1)

/-- `rnd`, the byte a CXNN draws: a free value, applied to the number of the draw (R151, D22). Nothing is known of it.
DESIGN CHOICE, safe (log 3). -/
opaque Config.rnd : Nat → Byte

/-- FONT_TABLE, 16 glyphs of 5 bytes, row 0 first (R66). PRESUMED, unsafe: the spec marks the bytes as general
knowledge and the table as a configuration field with this default (D13; log 2). -/
def Config.fontTable : List Byte :=
  [0xF0#8, 0x90#8, 0x90#8, 0x90#8, 0xF0#8] ++
  [0x20#8, 0x60#8, 0x20#8, 0x20#8, 0x70#8] ++
  [0xF0#8, 0x10#8, 0xF0#8, 0x80#8, 0xF0#8] ++
  [0xF0#8, 0x10#8, 0xF0#8, 0x10#8, 0xF0#8] ++
  [0x90#8, 0x90#8, 0xF0#8, 0x10#8, 0x10#8] ++
  [0xF0#8, 0x80#8, 0xF0#8, 0x10#8, 0xF0#8] ++
  [0xF0#8, 0x80#8, 0xF0#8, 0x90#8, 0xF0#8] ++
  [0xF0#8, 0x10#8, 0x20#8, 0x40#8, 0x40#8] ++
  [0xF0#8, 0x90#8, 0xF0#8, 0x90#8, 0xF0#8] ++
  [0xF0#8, 0x90#8, 0xF0#8, 0x10#8, 0xF0#8] ++
  [0xF0#8, 0x90#8, 0xF0#8, 0x90#8, 0x90#8] ++
  [0xE0#8, 0x90#8, 0xE0#8, 0x90#8, 0xE0#8] ++
  [0xF0#8, 0x80#8, 0x80#8, 0x80#8, 0xF0#8] ++
  [0xE0#8, 0x90#8, 0x90#8, 0x90#8, 0xE0#8] ++
  [0xF0#8, 0x80#8, 0xF0#8, 0x80#8, 0xF0#8] ++
  [0xF0#8, 0x80#8, 0xF0#8, 0x80#8, 0x80#8]

/-- MEM_SIZE, bytes of memory (R5). -/
def Config.memSize : Nat := 4096

/-- PROGRAM_ORIGIN, where a ROM is loaded and entered (R5). -/
def Config.programOrigin : Nat := 0x200

/-- MAX_ROM, the longest ROM in bytes (R5). -/
def Config.maxRom : Nat := 3584

/-- FONT_SIZE, bytes of the font table (R5). -/
def Config.fontSize : Nat := 80

/-- GLYPH_H, bytes of one glyph (R5). -/
def Config.glyphHeight : Nat := 5

end Sys2Proof
end

