-- ==== Sys2Proof/Syntax.lean ====
section
/-! DEFINITION. The instruction set as syntax: one constructor per mnemonic of spec/opcode_table.json (30_encoding.md
R97, R99). A constructor is named after the pattern, with `op` before it; its arguments are the pattern's fields. -/

namespace Sys2Proof

/-- The 34 defined patterns of R97 and the default handler UNHANDLED of R99, which is one instruction however many
fallback rows the table gives it (R104; log 5). Bits a pattern ignores (R98 a, b) are no argument; Y of 8XY6 and 8XYE
is decoded though its register is not used (R98 c). -/
inductive Instr where
  /-- 00E0, clear the framebuffer (R180). -/
  | op00E0
  /-- 00EE, return from subroutine (R121). -/
  | op00EE
  /-- 1NNN, jump (R122). -/
  | op1NNN (nnn : Imm12)
  /-- 2NNN, call subroutine (R123). -/
  | op2NNN (nnn : Imm12)
  /-- 3XNN, skip if VX = NN (R124). -/
  | op3XNN (x : Reg) (nn : Byte)
  /-- 4XNN, skip if VX differs from NN (R125). -/
  | op4XNN (x : Reg) (nn : Byte)
  /-- 5XY0, skip if VX = VY (R126). -/
  | op5XY0 (x y : Reg)
  /-- 6XNN, load immediate (R140). -/
  | op6XNN (x : Reg) (nn : Byte)
  /-- 7XNN, add immediate (R141). -/
  | op7XNN (x : Reg) (nn : Byte)
  /-- 8XY0, copy (R142). -/
  | op8XY0 (x y : Reg)
  /-- 8XY1, bitwise or (R143). -/
  | op8XY1 (x y : Reg)
  /-- 8XY2, bitwise and (R144). -/
  | op8XY2 (x y : Reg)
  /-- 8XY3, bitwise exclusive or (R145). -/
  | op8XY3 (x y : Reg)
  /-- 8XY4, add with carry out (R146). -/
  | op8XY4 (x y : Reg)
  /-- 8XY5, subtract VY from VX (R147). -/
  | op8XY5 (x y : Reg)
  /-- 8XY6, shift right by one (R148). -/
  | op8XY6 (x y : Reg)
  /-- 8XY7, subtract VX from VY (R149). -/
  | op8XY7 (x y : Reg)
  /-- 8XYE, shift left by one (R150). -/
  | op8XYE (x y : Reg)
  /-- 9XY0, skip if VX differs from VY (R127). -/
  | op9XY0 (x y : Reg)
  /-- ANNN, load I (R160). -/
  | opANNN (nnn : Imm12)
  /-- BNNN, jump with offset V0 (R128). -/
  | opBNNN (nnn : Imm12)
  /-- CXNN, random byte under mask (R151). -/
  | opCXNN (x : Reg) (nn : Byte)
  /-- DXYN, draw sprite (R181). -/
  | opDXYN (x y : Reg) (n : Nibble)
  /-- EX9E, skip if key VX is pressed (R190). -/
  | opEX9E (x : Reg)
  /-- EXA1, skip if key VX is not pressed (R191). -/
  | opEXA1 (x : Reg)
  /-- FX07, VX from the delay timer (R193). -/
  | opFX07 (x : Reg)
  /-- FX0A, poll for a key (R192). -/
  | opFX0A (x : Reg)
  /-- FX15, delay timer from VX (R194). -/
  | opFX15 (x : Reg)
  /-- FX18, sound timer from VX (R195). -/
  | opFX18 (x : Reg)
  /-- FX1E, add VX to I (R161). -/
  | opFX1E (x : Reg)
  /-- FX29, address of a font glyph (R162). -/
  | opFX29 (x : Reg)
  /-- FX33, store decimal digits (R163). -/
  | opFX33 (x : Reg)
  /-- FX55, store V0 to VX (R164). -/
  | opFX55 (x : Reg)
  /-- FX65, load V0 to VX (R165). -/
  | opFX65 (x : Reg)
  /-- UNHANDLED, the default handler, with the word that selected it (R99, R129). -/
  | unhandled (op : Word)
  deriving DecidableEq, Repr

/-- The instruction is the default handler (R129). -/
def Instr.isUnhandled : Instr → Bool
  | .unhandled _ => true
  | .op00E0 | .op00EE | .op1NNN _ | .op2NNN _ | .op3XNN _ _ | .op4XNN _ _ | .op5XY0 _ _ | .op6XNN _ _ | .op7XNN _ _ => false
  | .op8XY0 _ _ | .op8XY1 _ _ | .op8XY2 _ _ | .op8XY3 _ _ | .op8XY4 _ _ | .op8XY5 _ _ | .op8XY6 _ _ | .op8XY7 _ _ => false
  | .op8XYE _ _ | .op9XY0 _ _ | .opANNN _ | .opBNNN _ | .opCXNN _ _ | .opDXYN _ _ _ | .opEX9E _ | .opEXA1 _ => false
  | .opFX07 _ | .opFX0A _ | .opFX15 _ | .opFX18 _ | .opFX1E _ | .opFX29 _ | .opFX33 _ | .opFX55 _ | .opFX65 _ => false

/-- The number of the instruction's row in the opcode map of R97, 1 to 34; 0 for UNHANDLED, which has no row there. -/
def Instr.row : Instr → Nat
  | .op00E0 => 1
  | .op00EE => 2
  | .op1NNN _ => 3
  | .op2NNN _ => 4
  | .op3XNN _ _ => 5
  | .op4XNN _ _ => 6
  | .op5XY0 _ _ => 7
  | .op6XNN _ _ => 8
  | .op7XNN _ _ => 9
  | .op8XY0 _ _ => 10
  | .op8XY1 _ _ => 11
  | .op8XY2 _ _ => 12
  | .op8XY3 _ _ => 13
  | .op8XY4 _ _ => 14
  | .op8XY5 _ _ => 15
  | .op8XY6 _ _ => 16
  | .op8XY7 _ _ => 17
  | .op8XYE _ _ => 18
  | .op9XY0 _ _ => 19
  | .opANNN _ => 20
  | .opBNNN _ => 21
  | .opCXNN _ _ => 22
  | .opDXYN _ _ _ => 23
  | .opEX9E _ => 24
  | .opEXA1 _ => 25
  | .opFX07 _ => 26
  | .opFX0A _ => 27
  | .opFX15 _ => 28
  | .opFX18 _ => 29
  | .opFX1E _ => 30
  | .opFX29 _ => 31
  | .opFX33 _ => 32
  | .opFX55 _ => 33
  | .opFX65 _ => 34
  | .unhandled _ => 0

end Sys2Proof
end

