-- ==== Sys2Proof/WellFormed.lean ====
section
/-! DEFINITION. Which terms of `Instr` are instructions of this hardware: every operand is in range by its type, and
UNHANDLED may carry only a word of the unhandled space (30_encoding.md R100). -/

namespace Sys2Proof

/-- The unhandled space, condition by condition as the table of R100 gives it. -/
def unhandledWord (op : Word) : Bool :=
  let f := op.extractLsb' 12 4
  let nn := op.extractLsb' 0 8
  let n := op.extractLsb' 0 4
  (f == 0x0#4 && !([0xE0#8, 0xEE#8].contains nn)) ||
  (f == 0x8#4 && [0x8#4, 0x9#4, 0xA#4, 0xB#4, 0xC#4, 0xD#4, 0xF#4].contains n) ||
  (f == 0xE#4 && !([0x9E#8, 0xA1#8].contains nn)) ||
  (f == 0xF#4 && !([0x07#8, 0x0A#8, 0x15#8, 0x18#8, 0x1E#8, 0x29#8, 0x33#8, 0x55#8, 0x65#8].contains nn))

/-- The well-formed instructions (R97, R100). -/
def Instr.wf : Instr → Bool
  | .unhandled op => unhandledWord op
  | .op00E0 | .op00EE | .op1NNN _ | .op2NNN _ | .op3XNN _ _ | .op4XNN _ _ | .op5XY0 _ _ | .op6XNN _ _ | .op7XNN _ _ => true
  | .op8XY0 _ _ | .op8XY1 _ _ | .op8XY2 _ _ | .op8XY3 _ _ | .op8XY4 _ _ | .op8XY5 _ _ | .op8XY6 _ _ | .op8XY7 _ _ => true
  | .op8XYE _ _ | .op9XY0 _ _ | .opANNN _ | .opBNNN _ | .opCXNN _ _ | .opDXYN _ _ _ | .opEX9E _ | .opEXA1 _ => true
  | .opFX07 _ | .opFX0A _ | .opFX15 _ | .opFX18 _ | .opFX1E _ | .opFX29 _ | .opFX33 _ | .opFX55 _ | .opFX65 _ => true

end Sys2Proof
end

