-- ==== Sys2Proof/Decode.lean ====
section
/-! DEFINITION. The decoder (30_encoding.md R92, R95, R96, R102), total on every word and on every list of bytes, and
after it the encoder, written from the same encodings (R97), and the opcode map itself as a table. -/

namespace Sys2Proof

/-! ### Fields of a word (R92) -/

/-- F, bits 15:12, the family. -/
def family (op : Word) : Nibble := op.extractLsb' 12 4

/-- X, bits 11:8, as a register number. -/
def fieldX (op : Word) : Reg := (op.extractLsb' 8 4).toFin

/-- Y, bits 7:4, as a register number. -/
def fieldY (op : Word) : Reg := (op.extractLsb' 4 4).toFin

/-- N, bits 3:0. -/
def fieldN (op : Word) : Nibble := op.extractLsb' 0 4

/-- NN, bits 7:0. -/
def fieldNN (op : Word) : Byte := op.extractLsb' 0 8

/-- NNN, bits 11:0. -/
def fieldNNN (op : Word) : Imm12 := op.extractLsb' 0 12

/-! ### Decoding -/

/-- Family 0 dispatches on NN; X is not examined (R96, R98 b). -/
def decodeFamily0 (op : Word) : Instr :=
  match fieldNN op with
  | 0xE0#8 => .op00E0
  | 0xEE#8 => .op00EE
  | _ => .unhandled op

/-- Family 8 dispatches on N (R96). -/
def decodeFamily8 (op : Word) : Instr :=
  match fieldN op with
  | 0x0#4 => .op8XY0 (fieldX op) (fieldY op)
  | 0x1#4 => .op8XY1 (fieldX op) (fieldY op)
  | 0x2#4 => .op8XY2 (fieldX op) (fieldY op)
  | 0x3#4 => .op8XY3 (fieldX op) (fieldY op)
  | 0x4#4 => .op8XY4 (fieldX op) (fieldY op)
  | 0x5#4 => .op8XY5 (fieldX op) (fieldY op)
  | 0x6#4 => .op8XY6 (fieldX op) (fieldY op)
  | 0x7#4 => .op8XY7 (fieldX op) (fieldY op)
  | 0xE#4 => .op8XYE (fieldX op) (fieldY op)
  | _ => .unhandled op

/-- Family E dispatches on NN (R96). -/
def decodeFamilyE (op : Word) : Instr :=
  match fieldNN op with
  | 0x9E#8 => .opEX9E (fieldX op)
  | 0xA1#8 => .opEXA1 (fieldX op)
  | _ => .unhandled op

/-- Family F dispatches on NN (R96). -/
def decodeFamilyF (op : Word) : Instr :=
  match fieldNN op with
  | 0x07#8 => .opFX07 (fieldX op)
  | 0x0A#8 => .opFX0A (fieldX op)
  | 0x15#8 => .opFX15 (fieldX op)
  | 0x18#8 => .opFX18 (fieldX op)
  | 0x1E#8 => .opFX1E (fieldX op)
  | 0x29#8 => .opFX29 (fieldX op)
  | 0x33#8 => .opFX33 (fieldX op)
  | 0x55#8 => .opFX55 (fieldX op)
  | 0x65#8 => .opFX65 (fieldX op)
  | _ => .unhandled op

/-- The decoder of R102: the family first, then the secondary field of families 0, 8, E and F. The low nibble of 5XY0
and 9XY0 is ignored (R98 a). The last arm is reached by no word: it stands for the sixteen families being listed. -/
def decode (op : Word) : Instr :=
  match family op with
  | 0x0#4 => decodeFamily0 op
  | 0x1#4 => .op1NNN (fieldNNN op)
  | 0x2#4 => .op2NNN (fieldNNN op)
  | 0x3#4 => .op3XNN (fieldX op) (fieldNN op)
  | 0x4#4 => .op4XNN (fieldX op) (fieldNN op)
  | 0x5#4 => .op5XY0 (fieldX op) (fieldY op)
  | 0x6#4 => .op6XNN (fieldX op) (fieldNN op)
  | 0x7#4 => .op7XNN (fieldX op) (fieldNN op)
  | 0x8#4 => decodeFamily8 op
  | 0x9#4 => .op9XY0 (fieldX op) (fieldY op)
  | 0xA#4 => .opANNN (fieldNNN op)
  | 0xB#4 => .opBNNN (fieldNNN op)
  | 0xC#4 => .opCXNN (fieldX op) (fieldNN op)
  | 0xD#4 => .opDXYN (fieldX op) (fieldY op) (fieldN op)
  | 0xE#4 => decodeFamilyE op
  | 0xF#4 => decodeFamilyF op
  | _ => .unhandled op

/-- Why a list of bytes holds no instruction: no word is illegal (R99), so only a lack of bytes can be the reason. -/
inductive DecodeError where
  /-- The list is empty. -/
  | noBytes
  /-- The list holds the high byte only; an instruction is two bytes (R91). -/
  | oneByte
  deriving DecidableEq, Repr

/-- The word of two fetched bytes, the byte at the lower address first: big-endian (R67). -/
def wordOfBytes (hi lo : Byte) : Word := hi ++ lo

/-- Decode the instruction at the head of a list of bytes and give the rest of the list (R67, R91). -/
def decodeBytes : List Byte → Except DecodeError (Instr × List Byte)
  | [] => .error .noBytes
  | [_] => .error .oneByte
  | hi :: lo :: rest => .ok (decode (wordOfBytes hi lo), rest)

/-- The first word of an instruction whose bits the opcode table numbers: bit 0 the least significant bit of that word,
the bits from nbits on 0 (log 25). -/
def tableWord (nbits w : Nat) : Word := BitVec.ofNat 16 (w % 2 ^ nbits)

/-- The bytes of a word as the hardware stores it, the high byte at the lower address (R67). -/
def bytesOfWord (op : Word) : List Byte := [op.extractLsb' 8 8, op.extractLsb' 0 8]

/-- The instruction the decoder reads from the bits w of a row of the opcode table (log 25). -/
def decodeTableWord (nbits w : Nat) : Option Instr :=
  match decodeBytes (bytesOfWord (tableWord nbits w)) with
  | .ok (i, _) => some i
  | .error _ => none

/-! ### Encoding (R93, R97) -/

/-- Format NNN. -/
def formatNNN (f : Nibble) (nnn : Imm12) : Word := f ++ nnn

/-- Formats XNN and XOP. -/
def formatXNN (f : Nibble) (x : Reg) (nn : Byte) : Word := f ++ (BitVec.ofFin x : Nibble) ++ nn

/-- Formats XY and XYN. -/
def formatXYN (f : Nibble) (x y : Reg) (n : Nibble) : Word :=
  f ++ (BitVec.ofFin x : Nibble) ++ (BitVec.ofFin y : Nibble) ++ n

/-- The canonical word of an instruction: ignored bits are 0 (R98, R126; log 15). -/
def encode : Instr → Word
  | .op00E0 => 0x00E0#16
  | .op00EE => 0x00EE#16
  | .op1NNN nnn => formatNNN 0x1#4 nnn
  | .op2NNN nnn => formatNNN 0x2#4 nnn
  | .op3XNN x nn => formatXNN 0x3#4 x nn
  | .op4XNN x nn => formatXNN 0x4#4 x nn
  | .op5XY0 x y => formatXYN 0x5#4 x y 0x0#4
  | .op6XNN x nn => formatXNN 0x6#4 x nn
  | .op7XNN x nn => formatXNN 0x7#4 x nn
  | .op8XY0 x y => formatXYN 0x8#4 x y 0x0#4
  | .op8XY1 x y => formatXYN 0x8#4 x y 0x1#4
  | .op8XY2 x y => formatXYN 0x8#4 x y 0x2#4
  | .op8XY3 x y => formatXYN 0x8#4 x y 0x3#4
  | .op8XY4 x y => formatXYN 0x8#4 x y 0x4#4
  | .op8XY5 x y => formatXYN 0x8#4 x y 0x5#4
  | .op8XY6 x y => formatXYN 0x8#4 x y 0x6#4
  | .op8XY7 x y => formatXYN 0x8#4 x y 0x7#4
  | .op8XYE x y => formatXYN 0x8#4 x y 0xE#4
  | .op9XY0 x y => formatXYN 0x9#4 x y 0x0#4
  | .opANNN nnn => formatNNN 0xA#4 nnn
  | .opBNNN nnn => formatNNN 0xB#4 nnn
  | .opCXNN x nn => formatXNN 0xC#4 x nn
  | .opDXYN x y n => formatXYN 0xD#4 x y n
  | .opEX9E x => formatXNN 0xE#4 x 0x9E#8
  | .opEXA1 x => formatXNN 0xE#4 x 0xA1#8
  | .opFX07 x => formatXNN 0xF#4 x 0x07#8
  | .opFX0A x => formatXNN 0xF#4 x 0x0A#8
  | .opFX15 x => formatXNN 0xF#4 x 0x15#8
  | .opFX18 x => formatXNN 0xF#4 x 0x18#8
  | .opFX1E x => formatXNN 0xF#4 x 0x1E#8
  | .opFX29 x => formatXNN 0xF#4 x 0x29#8
  | .opFX33 x => formatXNN 0xF#4 x 0x33#8
  | .opFX55 x => formatXNN 0xF#4 x 0x55#8
  | .opFX65 x => formatXNN 0xF#4 x 0x65#8
  | .unhandled op => op

/-- The bytes of an instruction in memory order (R67). -/
def encodeBytes (i : Instr) : List Byte := bytesOfWord (encode i)

/-- A word with the bits its pattern ignores set to 0: X of 00E0 and 00EE, the low nibble of 5XY0 and 9XY0 (R98). -/
def canonicalWord (op : Word) : Word :=
  if family op = 0x0#4 ∧ (fieldNN op = 0xE0#8 ∨ fieldNN op = 0xEE#8) then op &&& 0xF0FF#16
  else if family op = 0x5#4 ∨ family op = 0x9#4 then op &&& 0xFFF0#16
  else op

/-! ### The opcode map (R97) -/

/-- One row of R97: a word selects it when the word under the mask is the match. -/
structure OpcodeRow where
  number : Nat
  mask : Word
  pattern : Word
  deriving DecidableEq, Repr

/-- The 34 rows of R97 in the order of the document's table, as R97 prints their masks and matches. -/
def opcodeMap : List OpcodeRow :=
  [⟨1, 0xF0FF#16, 0x00E0#16⟩, ⟨2, 0xF0FF#16, 0x00EE#16⟩, ⟨3, 0xF000#16, 0x1000#16⟩, ⟨4, 0xF000#16, 0x2000#16⟩] ++
  [⟨5, 0xF000#16, 0x3000#16⟩, ⟨6, 0xF000#16, 0x4000#16⟩, ⟨7, 0xF000#16, 0x5000#16⟩, ⟨8, 0xF000#16, 0x6000#16⟩] ++
  [⟨9, 0xF000#16, 0x7000#16⟩, ⟨10, 0xF00F#16, 0x8000#16⟩, ⟨11, 0xF00F#16, 0x8001#16⟩, ⟨12, 0xF00F#16, 0x8002#16⟩] ++
  [⟨13, 0xF00F#16, 0x8003#16⟩, ⟨14, 0xF00F#16, 0x8004#16⟩, ⟨15, 0xF00F#16, 0x8005#16⟩, ⟨16, 0xF00F#16, 0x8006#16⟩] ++
  [⟨17, 0xF00F#16, 0x8007#16⟩, ⟨18, 0xF00F#16, 0x800E#16⟩, ⟨19, 0xF000#16, 0x9000#16⟩, ⟨20, 0xF000#16, 0xA000#16⟩] ++
  [⟨21, 0xF000#16, 0xB000#16⟩, ⟨22, 0xF000#16, 0xC000#16⟩, ⟨23, 0xF000#16, 0xD000#16⟩, ⟨24, 0xF0FF#16, 0xE09E#16⟩] ++
  [⟨25, 0xF0FF#16, 0xE0A1#16⟩, ⟨26, 0xF0FF#16, 0xF007#16⟩, ⟨27, 0xF0FF#16, 0xF00A#16⟩, ⟨28, 0xF0FF#16, 0xF015#16⟩] ++
  [⟨29, 0xF0FF#16, 0xF018#16⟩, ⟨30, 0xF0FF#16, 0xF01E#16⟩, ⟨31, 0xF0FF#16, 0xF029#16⟩, ⟨32, 0xF0FF#16, 0xF033#16⟩] ++
  [⟨33, 0xF0FF#16, 0xF055#16⟩, ⟨34, 0xF0FF#16, 0xF065#16⟩]

/-- The numbers of the rows a word selects. -/
def rowsSelected (op : Word) : List Nat :=
  (opcodeMap.filter (fun r => op &&& r.mask == r.pattern)).map OpcodeRow.number

end Sys2Proof
end

