-- ==== Sys2Proof/Machine/State.lean ====
section
/-! DEFINITION. The machine's state as plain data: every piece of state 10_state.md gives it (R20 to R34, table R37),
and `draws`, the model's own counter of random draws (log 3). -/

namespace Sys2Proof.Machine

/-- Memory: the cells that differ from the reset contents, addresses strictly rising (log 18). -/
abbrev Memory := List Host.Cell

/-- The framebuffer: 32 rows, counted from the top, of 64 pixels, counted from the left; true is on (R30; log 23). -/
abbrev Frame := Vector (Vector Bool 64) 32

/-- The run state (R33). -/
inductive RunState where
  /-- Constructed, no program. -/
  | ready
  /-- Program loaded, cycles advance. -/
  | playing
  /-- Cycles frozen, host commands still accepted. -/
  | paused
  /-- Terminal. -/
  | quit
  deriving DecidableEq, Repr

/-- The causes of the spec's faults, codes 1 to 6 of R202. -/
inductive FaultCause where
  /-- 2NNN with SP = 16. -/
  | stackOverflow
  /-- 00EE with SP = 0. -/
  | stackUnderflow
  /-- A fetch with pc above 0x0FFE. -/
  | fetchFault
  /-- DXYN, FX33, FX55 or FX65 reaching above 0x0FFF. -/
  | dataAddressFault
  /-- EX9E or EXA1 with VX above 15. -/
  | keyIndexFault
  /-- FX29 with VX above 15. -/
  | fontDigitFault
  deriving DecidableEq, Repr

/-- The machine's state. -/
structure State where
  /-- V[0] to V[15]; V[15] is VF (R20, R21). -/
  v : Vector Byte 16
  /-- I, the index register (R23). -/
  i : Word
  /-- The program counter (R24). -/
  pc : Word
  /-- The memory of 4096 bytes (R26). -/
  mem : Memory
  /-- STK[0] to STK[15] (R27). -/
  stk : Vector Word 16
  /-- SP, the number of stack entries in use, 0 to 16 (R27; log 16). -/
  sp : Fin 17
  /-- DT, the delay timer (R28). -/
  dt : Byte
  /-- ST, the sound timer (R29). -/
  st : Byte
  /-- FB, the framebuffer (R30). -/
  fb : Frame
  /-- The keypad vector, bit k set while key k is pressed (R31). -/
  keys : Word
  /-- The redraw flag (R32). -/
  redraw : Bool
  /-- The run state (R33). -/
  runState : RunState
  /-- The fault latch; none is the code 0 (R34). -/
  fault : Option FaultCause
  /-- How many random bytes have been drawn: the model's own field, no state of the spec (log 3). -/
  draws : Nat
  deriving DecidableEq, Repr

/-- Why a step could stop the model. The spec's own faults are no such reason: taking one is a next state (R201; log 4). -/
inductive Fault where
  /-- An access to an address outside 0x000 to 0xFFF that no rule has checked. Raised by NOBODY: every rule checks its
  whole range before its first access and latches FetchFault or DataAddressFault instead (R9, R63, R64). Safe. -/
  | noSuchAddress (addr : Nat)
  deriving DecidableEq, Repr

/-- Why an instruction could have no meaning. -/
inductive Refusal where
  /-- Raised by the arm in `exec` of an instruction that has no meaning yet, and by nobody now: every instruction has
  one. Safe. -/
  | notModelled (mnemonic : String)
  deriving DecidableEq, Repr

/-- What a step or an instruction answers. -/
abbrev Result := Host.Outcome State Fault Refusal

/-- The state after reset, the transaction `init` (R37, R241): everything 0, the memory at its reset contents, Ready.
`draws` is 0 by DESIGN CHOICE (log 3); no statement rests on it. -/
def State.reset : State where
  v := Vector.replicate 16 0#8
  i := 0#16
  pc := 0#16
  mem := []
  stk := Vector.replicate 16 0#16
  sp := 0
  dt := 0#8
  st := 0#8
  fb := Vector.replicate 32 (Vector.replicate 64 false)
  keys := 0#16
  redraw := false
  runState := .ready
  fault := none
  draws := 0

end Sys2Proof.Machine
end

