-- ==== Sys2Proof/Machine/Ops.lean ====
section
/-! DEFINITION. The named operations over memory, registers, pc, stack, frame and latch, which every meaning goes
through, and taking a fault. -/

namespace Sys2Proof.Machine

/-! ### The reset contents of memory -/

/-- FONT_BASE as an address (R6, R62; log 1). -/
def fontBase : Nat := Config.fontBase.val

/-- Byte k of FONT_TABLE (R66; log 2). -/
def fontByte (k : Nat) : Byte := Config.fontTable.getD k 0#8

/-- What an address that memory does not list reads as: the reset contents, the font at FONT_BASE, which lies below
0x200, and 0 elsewhere (R37, R62, R241). -/
def background (a : Nat) : Byte :=
  if a < Config.programOrigin then
    if fontBase ≤ a ∧ a < fontBase + Config.fontSize then fontByte (a - fontBase) else 0#8
  else 0#8

/-! ### Memory (R9, R60, R65) -/

/-- The byte at an address (R9). Total; the rules check their range first and never read above 0xFFF (R63, R64). -/
def Memory.read : Memory → Nat → Byte
  | [], a => background a
  | (k, b) :: m, a => if a = k then b else Memory.read m a

/-- Put a cell into its place in a list of cells that does not hold its address. -/
def Memory.insert (a : Nat) (b : Byte) : Memory → Memory
  | [] => [(a, b)]
  | (k, c) :: m => if a < k then (a, b) :: (k, c) :: m else (k, c) :: Memory.insert a b m

/-- Store one byte (R9). A byte equal to the reset contents is not listed, so equal memories are equal lists. -/
def Memory.write (m : Memory) (a : Nat) (b : Byte) : Memory :=
  let rest := m.filter (fun c => c.1 != a)
  if b = background a then rest else Memory.insert a b rest

/-- Store bytes at increasing addresses, one after the other (R67, R69). -/
def Memory.writeBytes (m : Memory) (a : Nat) : List Byte → Memory
  | [] => m
  | b :: bs => Memory.writeBytes (m.write a b) (a + 1) bs

/-- The canonical form: addresses strictly rising and inside memory, no byte equal to the reset contents (log 18). -/
abbrev Memory.wf (m : Memory) : Prop :=
  m.Pairwise (fun c d => c.1 < d.1) ∧ ∀ c ∈ m, c.1 < Config.memSize ∧ c.2 ≠ background c.1

/-- MemRead of one byte (R9). -/
def State.readByte (s : State) (a : Nat) : Byte := s.mem.read a

/-- MemWrite of successive bytes from an address on (R9). -/
def State.storeBytes (s : State) (a : Nat) (bs : List Byte) : State := { s with mem := s.mem.writeBytes a bs }

/-! ### Registers (R20, R23) -/

/-- V[r]. -/
def State.getV (s : State) (r : Reg) : Byte := s.v[r]

/-- V[r] <- b. -/
def State.setV (s : State) (r : Reg) (b : Byte) : State := { s with v := s.v.set r b }

/-- I <- a. -/
def State.setI (s : State) (a : Word) : State := { s with i := a }

/-- DT <- b (R28). -/
def State.setDT (s : State) (b : Byte) : State := { s with dt := b }

/-- ST <- b (R29). -/
def State.setST (s : State) (b : Byte) : State := { s with st := b }

/-! ### The program counter (R24, R25) -/

/-- pc <- target. -/
def State.setPc (s : State) (target : Word) : State := { s with pc := target }

/-- pc <- pc + 2, modulo 2^16 (R25). -/
def State.advance (s : State) : State := s.setPc (s.pc + 2#16)

/-- Skip the next instruction if the condition holds: pc + 4, else pc + 2 (R25, R120 d). -/
def State.skipIf (s : State) (c : Bool) : State := s.setPc (if c then s.pc + 4#16 else s.pc + 2#16)

/-! ### The call stack (R27) -/

/-- STK[SP] <- w, then SP <- SP + 1, where an entry is free. -/
def State.push (s : State) (w : Word) (h : s.sp.val < 16) : State :=
  { s with stk := s.stk.set s.sp.val w, sp := ⟨s.sp.val + 1, by omega⟩ }

/-- The entry a pop reads: STK[SP - 1]. -/
def State.top (s : State) (h : 0 < s.sp.val) : Word := s.stk[s.sp.val - 1]'(by omega)

/-- SP <- SP - 1; the vacated entry keeps its value (R121). -/
def State.drop (s : State) : State := { s with sp := ⟨s.sp.val - 1, by omega⟩ }

/-! ### The frame and the redraw flag (R30, R32, R182) -/

/-- FB[y][x]. -/
def Frame.pixel (f : Frame) (y : Fin 32) (x : Fin 64) : Bool := f[y][x]

/-- The request `toggle(x, y)`: turn one pixel over (R182). -/
def Frame.toggle (f : Frame) (y : Fin 32) (x : Fin 64) : Frame := f.set y (f[y].set x (!(f.pixel y x)))

/-- The request `clear`: every pixel off (R182). -/
def Frame.clear : Frame := Vector.replicate 32 (Vector.replicate 64 false)

/-- FB[y][x] of a state. -/
def State.pixel (s : State) (y : Fin 32) (x : Fin 64) : Bool := s.fb.pixel y x

/-- Put a new frame and raise the redraw flag (R182: after the last request of an instruction). -/
def State.present (s : State) (f : Frame) : State := { s with fb := f, redraw := true }

/-! ### Keys and draws (R31, R36) -/

/-- KEY[k]. -/
def State.keyDown (s : State) (k : Nat) : Bool := s.keys.getLsbD k

/-- The byte `rnd` of this draw (R151; log 3). -/
def State.rnd (s : State) : Byte := Config.rnd s.draws

/-- A draw has been made: the next one is fresh. -/
def State.drawn (s : State) : State := { s with draws := s.draws + 1 }

/-! ### Taking a fault (R10, R201) -/

/-- fault <- c. -/
def State.latch (s : State) (c : FaultCause) : State := { s with fault := some c }

/-- `raise Fault(c)`: the instruction ends with no change but the latch (R10, R201 a, b, d). A next state: there is no
handler, and no instruction returns from a fault; the transaction `init` is the only way out (R219). -/
def raise (c : FaultCause) (s : State) : Result := .next (s.latch c)

/-- Check the n bytes from I on, as integers without wrapping, before the first access: DataAddressFault if the highest
address exceeds 0xFFF (R63, R166 b); no bytes cannot fault (R181). -/
def withData (n : Nat) (s : State) (k : Result) : Result :=
  if 0 < n ∧ 0xFFF < s.i.toNat + (n - 1) then raise .dataAddressFault s else k

/-! ### Fetch (R64, R90, R206) -/

/-- `step` acts: Playing and no fault latched (R206). -/
def State.admitted (s : State) : Bool := s.runState == .playing && s.fault == none

/-- Both bytes at pc are inside memory (R64). -/
def State.canFetch (s : State) : Bool := decide (s.pc.toNat ≤ 0x0FFE)

/-- {memory[pc], memory[pc + 1]}, big-endian (R67, R90). -/
def State.fetch (s : State) : Word := wordOfBytes (s.readByte s.pc.toNat) (s.readByte (s.pc.toNat + 1))

/-! ### Placing an instruction for the next step (log 25) -/

/-- Let `step` act: Playing, no fault latched, and a pc that can be fetched from. A Ready machine, or one whose pc no
fetch can use, gets the pc `load` gives (R244); any other keeps its pc. -/
def State.readied (s : State) : State :=
  { s with
    runState := .playing
    fault := none
    pc := if s.runState == .ready || !s.canFetch then BitVec.ofNat 16 Config.programOrigin else s.pc }

/-- Store a word at pc, high byte first (R67). -/
def State.placeWord (s : State) (op : Word) : State := s.storeBytes s.pc.toNat (bytesOfWord op)

end Sys2Proof.Machine
end

