-- ==== Sys2Proof/Machine/Flags.lean ====
section
/-! DEFINITION. The flag computations (10_state.md R21, R22; 41_load_and_alu.md R146 to R150). VF is V[15]. -/

namespace Sys2Proof.Machine

/-- VF (R21). -/
def VF : Reg := 15

/-- The only flag values the hardware writes, 0x00 and 0x01 (R21). -/
def flag (c : Bool) : Byte := if c then 0x01#8 else 0x00#8

/-- Carry out of the 9-bit sum: 1 if it exceeds 255 (R146). -/
def carry (a b : Byte) : Bool := decide (255 < a.toNat + b.toNat)

/-- Strictly greater, unsigned (R147; log 9). -/
def greater (a b : Byte) : Bool := decide (b.toNat < a.toNat)

/-- Bit 0 before a shift right (R148). -/
def lowBit (a : Byte) : Bool := a.getLsbD 0

/-- Bit 7 before a shift left (R150). -/
def highBit (a : Byte) : Bool := a.getLsbD 7

/-- VF <- flag. -/
def State.setFlag (s : State) (c : Bool) : State := s.setV VF (flag c)

end Sys2Proof.Machine
end

