-- ==== Sys2Proof/Machine/Operands.lean ====
section
/-! DEFINITION. The operand forms (30_encoding.md R94, 42_index_and_memory.md R166): immediates zero-extended, registers
by number, blocks of registers, and bytes at I plus an offset. -/

namespace Sys2Proof.Machine

/-- NNN zero-extended to 16 bits (R94). -/
def imm16 (nnn : Imm12) : Word := nnn.setWidth 16

/-- A general register zero-extended to 16 bits (R128, R161). -/
def State.getV16 (s : State) (r : Reg) : Word := (s.getV r).setWidth 16

/-- A register holding a number 0 to 15, a key or a hex digit (R162, R190). -/
def State.digit? (s : State) (r : Reg) : Option (Fin 16) :=
  if h : (s.getV r).toNat < 16 then some ⟨(s.getV r).toNat, h⟩ else none

/-- The effective address I + offset, an integer not wrapped to any width (R9, R166 b). -/
def State.dataAddr (s : State) (offset : Nat) : Nat := s.i.toNat + offset

/-- V0 to VX inclusive, in order: the block FX55 stores (R164). -/
def State.block (s : State) (x : Reg) : List Byte := (List.range (x.val + 1)).map (fun k => s.getV (Fin.ofNat 16 k))

/-- V0 to VX inclusive from memory at I, element by element: the block FX65 loads (R165). -/
def State.loadBlock (s : State) (x : Reg) : State :=
  (List.range (x.val + 1)).foldl (fun t k => t.setV (Fin.ofNat 16 k) (s.readByte (s.dataAddr k))) s

/-- The hundreds, tens and ones of a byte (R163). -/
def decimalDigits (b : Byte) : List Byte :=
  [BitVec.ofNat 8 (b.toNat / 100), BitVec.ofNat 8 (b.toNat / 10 % 10), BitVec.ofNat 8 (b.toNat % 10)]

/-- FONT_BASE + 5 d, the address of the glyph of digit d (R162). -/
def glyphAddr (d : Fin 16) : Word := BitVec.ofNat 16 (fontBase + Config.glyphHeight * d.val)

/-- FX0A's scan: the keys in ascending index, every pressed key overwriting the result (R192 case 1; log 10). -/
def State.scanKeys (s : State) : Option (Fin 16) :=
  (List.range 16).foldl (fun found k => if s.keyDown k then some (Fin.ofNat 16 k) else found) none

end Sys2Proof.Machine
end

