-- ==== Sys2Proof/Machine/Alu.lean ====
section
/-! DEFINITION. Load immediate, arithmetic, logic, shift and random (41_load_and_alu.md R140 to R153). Every operand is
read from `s`, the state before the first write; writes happen in the order the rule lists (R11; log 8). -/

namespace Sys2Proof.Machine

/-- 6XNN: VX <- NN (R140). -/
def exec6XNN (x : Reg) (nn : Byte) (s : State) : Result := .next (s.setV x nn).advance

/-- 7XNN: VX <- VX + NN modulo 256, no flag (R141). -/
def exec7XNN (x : Reg) (nn : Byte) (s : State) : Result := .next (s.setV x (s.getV x + nn)).advance

/-- 8XY0: VX <- VY (R142). -/
def exec8XY0 (x y : Reg) (s : State) : Result := .next (s.setV x (s.getV y)).advance

/-- 8XY1: VX <- VX OR VY (R143). -/
def exec8XY1 (x y : Reg) (s : State) : Result := .next (s.setV x (s.getV x ||| s.getV y)).advance

/-- 8XY2: VX <- VX AND VY (R144). -/
def exec8XY2 (x y : Reg) (s : State) : Result := .next (s.setV x (s.getV x &&& s.getV y)).advance

/-- 8XY3: VX <- VX XOR VY (R145). -/
def exec8XY3 (x y : Reg) (s : State) : Result := .next (s.setV x (s.getV x ^^^ s.getV y)).advance

/-- 8XY4: VX <- low 8 bits of the sum, then VF <- carry (R146). -/
def exec8XY4 (x y : Reg) (s : State) : Result :=
  .next ((s.setV x (s.getV x + s.getV y)).setFlag (carry (s.getV x) (s.getV y))).advance

/-- 8XY5: VF <- VX > VY, then VX <- VX - VY modulo 256 (R147). -/
def exec8XY5 (x y : Reg) (s : State) : Result :=
  .next ((s.setFlag (greater (s.getV x) (s.getV y))).setV x (s.getV x - s.getV y)).advance

/-- 8XY6: VF <- bit 0 of VX, then VX <- VX >> 1; VY is not used (R148). -/
def exec8XY6 (x _y : Reg) (s : State) : Result :=
  .next ((s.setFlag (lowBit (s.getV x))).setV x (s.getV x >>> 1)).advance

/-- 8XY7: VF <- VX < VY, then VX <- VY - VX modulo 256 (R149). -/
def exec8XY7 (x y : Reg) (s : State) : Result :=
  .next ((s.setFlag (greater (s.getV y) (s.getV x))).setV x (s.getV y - s.getV x)).advance

/-- 8XYE: VF <- bit 7 of VX, then VX <- VX << 1 modulo 256; VY is not used (R150). -/
def exec8XYE (x _y : Reg) (s : State) : Result :=
  .next ((s.setFlag (highBit (s.getV x))).setV x (s.getV x <<< 1)).advance

/-- CXNN: VX <- rnd AND NN; the draw is used up (R151; log 3). -/
def execCXNN (x : Reg) (nn : Byte) (s : State) : Result := .next (s.setV x (s.rnd &&& nn)).drawn.advance

end Sys2Proof.Machine
end

