-- ==== Sys2Proof/Machine/Control.lean ====
section
/-! DEFINITION. Control transfer and the default handler (40_control_flow.md R120 to R129). -/

namespace Sys2Proof.Machine

/-- 00EE: pop the return address into pc, no + 2; StackUnderflow when the stack is empty (R121). -/
def exec00EE (s : State) : Result :=
  if h : 0 < s.sp.val then .next (s.drop.setPc (s.top h)) else raise .stackUnderflow s

/-- 1NNN: pc <- NNN (R122). -/
def exec1NNN (nnn : Imm12) (s : State) : Result := .next (s.setPc (imm16 nnn))

/-- 2NNN: push pc + 2, pc <- NNN; StackOverflow when 16 entries are in use (R123). -/
def exec2NNN (nnn : Imm12) (s : State) : Result :=
  if h : s.sp.val < 16 then .next ((s.push (s.pc + 2#16) h).setPc (imm16 nnn)) else raise .stackOverflow s

/-- 3XNN: skip if VX = NN (R124). -/
def exec3XNN (x : Reg) (nn : Byte) (s : State) : Result := .next (s.skipIf (s.getV x == nn))

/-- 4XNN: skip if VX differs from NN (R125). -/
def exec4XNN (x : Reg) (nn : Byte) (s : State) : Result := .next (s.skipIf (s.getV x != nn))

/-- 5XY0: skip if VX = VY (R126). -/
def exec5XY0 (x y : Reg) (s : State) : Result := .next (s.skipIf (s.getV x == s.getV y))

/-- 9XY0: skip if VX differs from VY (R127). -/
def exec9XY0 (x y : Reg) (s : State) : Result := .next (s.skipIf (s.getV x != s.getV y))

/-- BNNN: pc <- V0 + NNN, always V0 (R128). -/
def execBNNN (nnn : Imm12) (s : State) : Result := .next (s.setPc (s.getV16 0 + imm16 nnn))

/-- UNHANDLED: pc <- pc + 2 and no other change; the word is not used (R129). -/
def execUnhandled (_op : Word) (s : State) : Result := .next s.advance

end Sys2Proof.Machine
end

