-- ==== Sys2Proof/Machine/Display.lean ====
section
/-! DEFINITION. The display instructions (43_display.md R180 to R183). -/

namespace Sys2Proof.Machine

/-- What a sprite draw carries along: the frame so far and whether a pixel has gone from on to off. -/
structure Drawing where
  frame : Frame
  hit : Bool
  deriving DecidableEq, Repr

/-- One sprite bit at column x and row y, both integers: a set bit inside the frame turns its pixel over and hits if the
pixel was on; outside the frame it is dropped, not wrapped (R181 cases 1 to 4). -/
def plot (y x : Nat) (bit : Bool) (d : Drawing) : Drawing :=
  if h : bit = true ∧ x ≤ 63 ∧ y ≤ 31 then
    { frame := d.frame.toggle ⟨y, by omega⟩ ⟨x, by omega⟩
      hit := d.hit || d.frame.pixel ⟨y, by omega⟩ ⟨x, by omega⟩ }
  else d

/-- One row of a sprite, eight columns from x0 on; bit 7 is the leftmost (R181). -/
def plotRow (y x0 : Nat) (b : Byte) (d : Drawing) : Drawing :=
  (List.range 8).foldl (fun e c => plot y (x0 + c) (b.getLsbD (7 - c)) e) d

/-- The sprite of n rows whose bytes stand at I, its origin at column x0 and row y0, used as they are (R181). -/
def drawSprite (s : State) (x0 y0 n : Nat) : Drawing :=
  (List.range n).foldl (fun d r => plotRow (y0 + r) x0 (s.readByte (s.dataAddr r)) d) { frame := s.fb, hit := false }

/-- 00E0: every pixel off, redraw raised whatever the frame was (R180). -/
def exec00E0 (s : State) : Result := .next (s.present Frame.clear).advance

/-- DXYN: draw, then VF <- hit, raise redraw and advance; all n bytes are bounds-checked first (R181). -/
def execDXYN (x y : Reg) (n : Nibble) (s : State) : Result :=
  let d := drawSprite s (s.getV x).toNat (s.getV y).toNat n.toNat
  withData n.toNat s (.next ((s.present d.frame).setFlag d.hit).advance)

end Sys2Proof.Machine
end

