-- ==== Sys2Proof/Machine/Index.lean ====
section
/-! DEFINITION. The index register, loads and stores (42_index_and_memory.md R160 to R166). No load or store changes I
(R166 d; log 12). -/

namespace Sys2Proof.Machine

/-- ANNN: I <- NNN (R160). -/
def execANNN (nnn : Imm12) (s : State) : Result := .next (s.setI (imm16 nnn)).advance

/-- FX1E: I <- I + VX modulo 2^16, no flag (R161). -/
def execFX1E (x : Reg) (s : State) : Result := .next (s.setI (s.i + s.getV16 x)).advance

/-- FX29: I <- FONT_BASE + 5 VX; FontDigitFault when VX exceeds 15 (R162). -/
def execFX29 (x : Reg) (s : State) : Result :=
  match s.digit? x with
  | some d => .next (s.setI (glyphAddr d)).advance
  | none => raise .fontDigitFault s

/-- FX33: the three decimal digits of VX to memory at I, I + 1, I + 2 (R163). -/
def execFX33 (x : Reg) (s : State) : Result :=
  withData 3 s (.next (s.storeBytes (s.dataAddr 0) (decimalDigits (s.getV x))).advance)

/-- FX55: V0 to VX to memory from I on (R164). -/
def execFX55 (x : Reg) (s : State) : Result :=
  withData (x.val + 1) s (.next (s.storeBytes (s.dataAddr 0) (s.block x)).advance)

/-- FX65: memory from I on to V0 to VX (R165). -/
def execFX65 (x : Reg) (s : State) : Result := withData (x.val + 1) s (.next (s.loadBlock x).advance)

end Sys2Proof.Machine
end

