-- ==== Sys2Proof/Machine/Keypad.lean ====
section
/-! DEFINITION. The keypad and timer instructions (44_keypad_and_timers.md R190 to R196). -/

namespace Sys2Proof.Machine

/-- EX9E: skip if key VX is pressed; KeyIndexFault when VX exceeds 15 (R190). -/
def execEX9E (x : Reg) (s : State) : Result :=
  match s.digit? x with
  | some k => .next (s.skipIf (s.keyDown k))
  | none => raise .keyIndexFault s

/-- EXA1: skip if key VX is not pressed; KeyIndexFault when VX exceeds 15 (R191). -/
def execEXA1 (x : Reg) (s : State) : Result :=
  match s.digit? x with
  | some k => .next (s.skipIf (!s.keyDown k))
  | none => raise .keyIndexFault s

/-- FX07: VX <- DT (R193; log 11). -/
def execFX07 (x : Reg) (s : State) : Result := .next (s.setV x s.dt).advance

/-- FX0A: if a key is pressed, VX <- its number and advance; otherwise nothing changes, so the next step polls again
(R192). -/
def execFX0A (x : Reg) (s : State) : Result :=
  match s.scanKeys with
  | some k => .next (s.setV x (BitVec.ofNat 8 k.val)).advance
  | none => .next s

/-- FX15: DT <- VX (R194; log 11). -/
def execFX15 (x : Reg) (s : State) : Result := .next (s.setDT (s.getV x)).advance

/-- FX18: ST <- VX (R195; log 11). -/
def execFX18 (x : Reg) (s : State) : Result := .next (s.setST (s.getV x)).advance

end Sys2Proof.Machine
end

