-- ==== Sys2Proof/Machine/Step.lean ====
section
/-! DEFINITION. The transaction `step` (60_exceptions.md R206): one fetch, decode, execute. -/

namespace Sys2Proof.Machine

/-- `step`: no change unless Playing with no fault latched; FetchFault if pc exceeds 0x0FFE; otherwise the decoded
instruction at pc executes (R206). What the transaction returns is `stepResult` (R205; log 7). -/
def step (s : State) : Host.Outcome State Fault Refusal :=
  if s.admitted then
    if s.canFetch then exec (decode s.fetch) s else raise .fetchFault s
  else .next s

/-- s with the instruction of the bits w stored where the next step fetches, the machine Playing (log 25). -/
def State.withFetchWord (s : State) (nbits w : Nat) : State := s.readied.placeWord (tableWord nbits w)

end Sys2Proof.Machine
end

