-- ==== Sys2Proof/Machine/Transactions.lean ====
section
/-! DEFINITION. The block's interface (60_exceptions.md R225): every transaction of the host as a function of the state,
the values they return, and the outputs the host reads. -/

namespace Sys2Proof.Machine

/-! ### Reset and loading (70_reset_and_hazards.md) -/

/-- `init`, accepted in every run state and with a fault latched (R241, R242). The draws already made stay used up: the
generator is outside the block (R151; log 3). -/
def initialise (s : State) : State := { State.reset with draws := s.draws }

/-- What `load` returns (R225, R244). -/
inductive LoadResult where
  /-- The ROM is in memory and the machine plays. -/
  | loaded
  /-- The ROM is longer than 3584 bytes. -/
  | romTooLarge
  /-- The machine was not Ready. -/
  | loadRefused
  deriving DecidableEq, Repr

/-- The result of `load(rom)` (R244, R245). -/
def loadResult (rom : List Byte) (s : State) : LoadResult :=
  if s.runState ≠ .ready then .loadRefused
  else if Config.maxRom < rom.length then .romTooLarge
  else .loaded

/-- The effect of `load(rom)`: the bytes from 0x200 on, pc and run state; nothing where it fails (R244). -/
def loadRom (rom : List Byte) (s : State) : State :=
  match loadResult rom s with
  | .loaded =>
    { s.storeBytes Config.programOrigin rom with
      pc := BitVec.ofNat 16 Config.programOrigin
      runState := .playing }
  | .romTooLarge => s
  | .loadRefused => s

/-! ### The timers (R218) -/

/-- One unit less, never below 0 (R28, R218). -/
def countDown (b : Byte) : Byte := if 0 < b.toNat then b - 1#8 else b

/-- `tick_timers`: both timers count down, each on its own, while Playing with no fault latched (R218). -/
def tickTimers (s : State) : State :=
  if s.admitted then { s with dt := countDown s.dt, st := countDown s.st } else s

/-! ### Host commands (R207 to R211, R215) -/

/-- `set_keys`: all 16 bits at once, in every run state and while faulted (R207). -/
def setKeys (k : Word) (s : State) : State := { s with keys := k }

/-- `pause`: only from Playing (R209). -/
def pause (s : State) : State := if s.runState = .playing then { s with runState := .paused } else s

/-- `resume`: only from Paused (R210). -/
def resume (s : State) : State := if s.runState = .paused then { s with runState := .playing } else s

/-- `quit`: from every run state (R211). -/
def quit (s : State) : State := { s with runState := .quit }

/-- `frame_consumed`: redraw <- 0, in every run state (R215). -/
def frameConsumed (s : State) : State := { s with redraw := false }

/-! ### All transactions (R225) -/

/-- The transactions that can change the state, with their arguments; the argument rnd of `step` is `State.rnd` (log 3). -/
inductive Txn where
  | init
  | load (rom : List Byte)
  | step
  | tickTimers
  | setKeys (keys : Word)
  | pause
  | resume
  | quit
  | frameConsumed
  deriving DecidableEq, Repr

/-- The effect of a transaction (R225). -/
def transact (tx : Txn) (s : State) : Result :=
  match tx with
  | .init => .next (initialise s)
  | .load rom => .next (loadRom rom s)
  | .step => step s
  | .tickTimers => .next (tickTimers s)
  | .setKeys k => .next (setKeys k s)
  | .pause => .next (pause s)
  | .resume => .next (resume s)
  | .quit => .next (quit s)
  | .frameConsumed => .next (frameConsumed s)

/-- What `step` returns (R205). -/
inductive StepResult where
  /-- The step was not admitted; nothing changed. -/
  | idle
  /-- One defined instruction ran to completion. -/
  | executed
  /-- The word at pc matched no defined pattern; pc advanced by 2. -/
  | unhandled
  /-- The instruction or its fetch faulted; only the latch changed. -/
  | fault (c : FaultCause)
  deriving DecidableEq, Repr

/-- The result of the `step` that starts in s (R205, R206); none if the model itself stopped, which it never does. -/
def stepResult (s : State) : Option StepResult :=
  if s.admitted then
    match step s with
    | .next t =>
      match t.fault with
      | some c => some (.fault c)
      | none => if (decode s.fetch).isUnhandled then some .unhandled else some .executed
    | .fault _ => none
    | .refused _ => none
  else some .idle

/-! ### Outputs (R205, R213, R214, R216) -/

/-- buzzer_active: ST > 0, a pure function of ST (R213). -/
def buzzerActive (s : State) : Bool := decide (0 < s.st.toNat)

/-- The framebuffer read port: 1 for on, 0 for off (R214). -/
def pixelValue (s : State) (y : Fin 32) (x : Fin 64) : BitVec 1 := BitVec.ofBool (s.pixel y x)

/-- The codes of the run state (R33). -/
def runStateCode (s : State) : BitVec 2 :=
  match s.runState with
  | .ready => 0#2
  | .playing => 1#2
  | .paused => 2#2
  | .quit => 3#2

/-- The code of a cause (R202). -/
def causeCode (c : FaultCause) : BitVec 3 :=
  match c with
  | .stackOverflow => 1#3
  | .stackUnderflow => 2#3
  | .fetchFault => 3#3
  | .dataAddressFault => 4#3
  | .keyIndexFault => 5#3
  | .fontDigitFault => 6#3

/-- The fault latch as the host reads it: 0 for None (R34, R202). -/
def faultCode (s : State) : BitVec 3 :=
  match s.fault with
  | none => 0#3
  | some c => causeCode c

/-- Debug read of the word at pc, offered when pc is at most 0x0FFE (R216). -/
def debugOpcode (s : State) : Option Word := if s.canFetch then some s.fetch else none

/-- What a step presents beside its result: the pc at its start and, unless it is Idle or a FetchFault, the word fetched
(R205). -/
def stepReport (s : State) : Word × Option Word := (s.pc, if s.admitted then debugOpcode s else none)

/-- Debug read of V[0] to V[15] (R216). The other reads of R216 are the fields of State themselves. -/
def debugRegisters (s : State) : List Byte := s.v.toList

/-- Debug read of all 4096 memory bytes (R216). -/
def debugMemory (s : State) : List Byte := (List.range Config.memSize).map s.readByte

end Sys2Proof.Machine
end

