-- ==== Sys2Proof/Safety.lean ====
section
/-! DEFINITION. The terms the statements are written in: the invariant, the parts of the state a frame keeps, and the
spec's own tables (R22, R25, R202) as functions, written apart from the meanings. -/

namespace Sys2Proof.Safety

open Sys2Proof.Machine

/-! ### The invariant -/

/-- What holds in every reachable state (R38, R123): memory is in canonical form, pc is at most 0x10FE, and every stack
entry is a return address, at most 0x1000. The other bounds of R38 hold by the fields' types. -/
def StateInv (s : State) : Prop :=
  s.mem.wf ∧ s.pc.toNat ≤ 0x10FE ∧ ∀ k : Fin 16, (s.stk[k]).toNat ≤ 0x1000

/-- A step that did not stop the model. -/
def Completes (r : Result) : Prop := ∃ t, r = .next t

/-- Every word that a mask and a match select decodes as f says (R97). -/
def Decodes (mask pattern : Word) (f : Word → Instr) : Prop := ∀ w, w &&& mask = pattern → decode w = f w

/-! ### Frames -/

/-- The parts of the state beside the general registers. -/
inductive Part where
  | index
  | pc
  | memory
  | stack
  | delay
  | sound
  | pixels
  | redraw
  | keys
  | runState
  | fault
  | draws
  deriving DecidableEq, Repr

/-- A part is the same in two states; memory byte by byte, the frame pixel by pixel. -/
def Part.same (p : Part) (s t : State) : Prop :=
  match p with
  | .index => t.i = s.i
  | .pc => t.pc = s.pc
  | .memory => ∀ a, t.readByte a = s.readByte a
  | .stack => t.sp = s.sp ∧ ∀ k : Fin 16, t.stk[k] = s.stk[k]
  | .delay => t.dt = s.dt
  | .sound => t.st = s.st
  | .pixels => ∀ y x, t.pixel y x = s.pixel y x
  | .redraw => t.redraw = s.redraw
  | .keys => t.keys = s.keys
  | .runState => t.runState = s.runState
  | .fault => t.fault = s.fault
  | .draws => t.draws = s.draws

/-- Every part outside the list is the same. -/
def KeepsBut (w : List Part) (s t : State) : Prop := ∀ p, p ∉ w → p.same s t

/-- Every general register outside the list is the same. -/
def KeepsRegsBut (w : List Reg) (s t : State) : Prop := ∀ r, r ∉ w → t.getV r = s.getV r

/-- Every byte of memory outside the n bytes from a on is the same. -/
def KeepsBytesBut (a n : Nat) (s t : State) : Prop := ∀ k, ¬(a ≤ k ∧ k < a + n) → t.readByte k = s.readByte k

/-- The general registers an instruction may write: its destination, and VF where it is the flag (R22). -/
def writesRegs : Instr → List Reg
  | .op6XNN x _ | .op7XNN x _ | .op8XY0 x _ | .op8XY1 x _ | .op8XY2 x _ | .op8XY3 x _ | .opCXNN x _ => [x]
  | .opFX07 x | .opFX0A x => [x]
  | .op8XY4 x _ | .op8XY5 x _ | .op8XY6 x _ | .op8XY7 x _ | .op8XYE x _ => [x, VF]
  | .opDXYN _ _ _ => [VF]
  | .opFX65 x => (List.finRange 16).filter (fun r => r ≤ x)
  | .op00E0 | .op00EE | .op1NNN _ | .op2NNN _ | .op3XNN _ _ | .op4XNN _ _ | .op5XY0 _ _ | .op9XY0 _ _ => []
  | .opANNN _ | .opBNNN _ | .opEX9E _ | .opEXA1 _ | .opFX15 _ | .opFX18 _ | .opFX1E _ | .opFX29 _ | .opFX33 _ => []
  | .opFX55 _ | .unhandled _ => []

/-- The parts an instruction may write beside pc and the latch; memory is left to `storesBytes`. -/
def writesParts : Instr → List Part
  | .op00E0 | .opDXYN _ _ _ => [.pixels, .redraw]
  | .op00EE | .op2NNN _ => [.stack]
  | .opCXNN _ _ => [.draws]
  | .opFX15 _ => [.delay]
  | .opFX18 _ => [.sound]
  | .opANNN _ | .opFX1E _ | .opFX29 _ => [.index]
  | .opFX33 _ | .opFX55 _ => [.memory]
  | .op1NNN _ | .op3XNN _ _ | .op4XNN _ _ | .op5XY0 _ _ | .op6XNN _ _ | .op7XNN _ _ | .op8XY0 _ _ | .op8XY1 _ _ => []
  | .op8XY2 _ _ | .op8XY3 _ _ | .op8XY4 _ _ | .op8XY5 _ _ | .op8XY6 _ _ | .op8XY7 _ _ | .op8XYE _ _ => []
  | .op9XY0 _ _ | .opBNNN _ | .opEX9E _ | .opEXA1 _ | .opFX07 _ | .opFX0A _ | .opFX65 _ | .unhandled _ => []

/-- How many bytes an instruction stores, from I + 0 on (R69). -/
def storesBytes : Instr → Nat
  | .opFX33 _ => 3
  | .opFX55 x => x.val + 1
  | .op00E0 | .op00EE | .op1NNN _ | .op2NNN _ | .op3XNN _ _ | .op4XNN _ _ | .op5XY0 _ _ | .op6XNN _ _ | .op7XNN _ _ => 0
  | .op8XY0 _ _ | .op8XY1 _ _ | .op8XY2 _ _ | .op8XY3 _ _ | .op8XY4 _ _ | .op8XY5 _ _ | .op8XY6 _ _ | .op8XY7 _ _ => 0
  | .op8XYE _ _ | .op9XY0 _ _ | .opANNN _ | .opBNNN _ | .opCXNN _ _ | .opDXYN _ _ _ | .opEX9E _ | .opEXA1 _ => 0
  | .opFX07 _ | .opFX0A _ | .opFX15 _ | .opFX18 _ | .opFX1E _ | .opFX29 _ | .opFX65 _ | .unhandled _ => 0

/-! ### The fault table (R202) and the pc table (R25) -/

/-- The condition of each row of R202, by the raising instruction; the row of the fetch is `step`'s own. -/
def faultCondition (i : Instr) (s : State) : Option FaultCause :=
  match i with
  | .op2NNN _ => if s.sp.val = 16 then some .stackOverflow else none
  | .op00EE => if s.sp.val = 0 then some .stackUnderflow else none
  | .opDXYN _ _ n => if n.toNat ≠ 0 ∧ s.i.toNat + n.toNat - 1 > 0xFFF then some .dataAddressFault else none
  | .opFX33 _ => if s.i.toNat + 2 > 0xFFF then some .dataAddressFault else none
  | .opFX55 x | .opFX65 x => if s.i.toNat + x.val > 0xFFF then some .dataAddressFault else none
  | .opEX9E x | .opEXA1 x => if (s.getV x).toNat > 15 then some .keyIndexFault else none
  | .opFX29 x => if (s.getV x).toNat > 15 then some .fontDigitFault else none
  | .op00E0 | .op1NNN _ | .op3XNN _ _ | .op4XNN _ _ | .op5XY0 _ _ | .op6XNN _ _ | .op7XNN _ _ | .op8XY0 _ _ => none
  | .op8XY1 _ _ | .op8XY2 _ _ | .op8XY3 _ _ | .op8XY4 _ _ | .op8XY5 _ _ | .op8XY6 _ _ | .op8XY7 _ _ | .op8XYE _ _ => none
  | .op9XY0 _ _ | .opANNN _ | .opBNNN _ | .opCXNN _ _ | .opFX07 _ | .opFX0A _ | .opFX15 _ | .opFX18 _ | .opFX1E _ => none
  | .unhandled _ => none

/-- pc + 4 if the condition holds, else pc + 2 (R25). -/
def skipPc (s : State) (c : Prop) [Decidable c] : Word := if c then s.pc + 4#16 else s.pc + 2#16

/-- The pc an instruction that does not fault leaves, row by row of R25. -/
def pcAfter (i : Instr) (s : State) : Word :=
  match i with
  | .op00EE => s.stk.toList.getD (s.sp.val - 1) 0#16
  | .op1NNN nnn | .op2NNN nnn => BitVec.ofNat 16 nnn.toNat
  | .op3XNN x nn => skipPc s (s.getV x = nn)
  | .op4XNN x nn => skipPc s (s.getV x ≠ nn)
  | .op5XY0 x y => skipPc s (s.getV x = s.getV y)
  | .op9XY0 x y => skipPc s (s.getV x ≠ s.getV y)
  | .opEX9E x => skipPc s (s.keyDown (s.getV x).toNat = true)
  | .opEXA1 x => skipPc s (s.keyDown (s.getV x).toNat = false)
  | .opBNNN nnn => BitVec.ofNat 16 ((s.getV 0).toNat + nnn.toNat)
  | .opFX0A _ => if s.keys = 0#16 then s.pc else s.pc + 2#16
  | .op00E0 | .op6XNN _ _ | .op7XNN _ _ | .op8XY0 _ _ | .op8XY1 _ _ | .op8XY2 _ _ | .op8XY3 _ _ => s.pc + 2#16
  | .op8XY4 _ _ | .op8XY5 _ _ | .op8XY6 _ _ | .op8XY7 _ _ | .op8XYE _ _ | .opANNN _ | .opCXNN _ _ => s.pc + 2#16
  | .opDXYN _ _ _ | .opFX07 _ | .opFX15 _ | .opFX18 _ | .opFX1E _ | .opFX29 _ | .opFX33 _ | .opFX55 _ => s.pc + 2#16
  | .opFX65 _ | .unhandled _ => s.pc + 2#16

/-! ### A sprite in closed form (R181) -/

/-- The sprite of n rows at I with origin column x0 and row y0 sets a bit at the pixel in row y and column x. -/
def spriteBit (s : State) (x0 y0 n : Nat) (y : Fin 32) (x : Fin 64) : Bool :=
  decide (x0 ≤ x.val ∧ x.val < x0 + 8 ∧ y0 ≤ y.val ∧ y.val < y0 + n) &&
    (s.readByte (s.i.toNat + (y.val - y0))).getLsbD (7 - (x.val - x0))

/-! ### The run-state table (R208) -/

/-- The run state a transaction leaves, cell by cell of R208; `load` where it succeeds. -/
def runStateAfter (tx : Txn) (s : State) : RunState :=
  match tx, s.runState with
  | .init, _ => .ready
  | .load rom, .ready => if rom.length ≤ 3584 then .playing else .ready
  | .load _, .playing => .playing
  | .load _, .paused => .paused
  | .load _, .quit => .quit
  | .pause, .playing => .paused
  | .pause, .ready => .ready
  | .pause, .paused => .paused
  | .pause, .quit => .quit
  | .resume, .paused => .playing
  | .resume, .ready => .ready
  | .resume, .playing => .playing
  | .resume, .quit => .quit
  | .quit, _ => .quit
  | .step, r | .tickTimers, r | .setKeys _, r | .frameConsumed, r => r

end Sys2Proof.Safety
end

