-- ==== Sys2Proof/Certificates/Slice0/Obligations.lean ====
section
/-! DEFINITION. The statements for the provers. A docstring names the rule of spec/ a statement formalises, and the log
entry or the spec's own marked decision it rests on where it does. -/

open Sys2Proof Sys2Proof.Machine Sys2Proof.Safety

/-! ### Encoding (30_encoding.md) -/

/-- R92, R97, R98: decoding the encoding of a well-formed instruction gives it back, every operand at every value, and
leaves the bytes that follow. That UNHANDLED is an instruction with its word as argument is the model's reading
(log 5). -/
def Obligations.DecodeOfEncode : Prop :=
  ∀ i : Instr, i.wf = true →
    decode (encode i) = i ∧ ∀ rest, decodeBytes (encodeBytes i ++ rest) = .ok (i, rest)

/-- R98: every word decodes to a well-formed instruction, whose encoding is the word with its ignored bits 0 and decodes
the same. Which bits are ignored is the spec's decision D10, D11 (log 15). -/
def Obligations.EncodeOfDecode : Prop :=
  ∀ w : Word, (decode w).wf = true ∧ encode (decode w) = canonicalWord w ∧ decode (canonicalWord w) = decode w

/-- R97: a word selects the row of its instruction and no other; a word that decodes to UNHANDLED selects none. The masks
rest on the spec's decisions D10, D11 (log 15). -/
def Obligations.DecoderFollowsOpcodeMap : Prop :=
  ∀ w : Word, rowsSelected w = if (decode w).isUnhandled then [] else [(decode w).row]

/-- R100: exactly the words of the unhandled space decode to UNHANDLED. Its family 0 row is the spec's decision D10
(log 15). That the instruction carries its word is the model's reading of R99 and R104, one constructor for the default
handler (log 5), and nothing R100 says. -/
def Obligations.UnhandledSpace : Prop :=
  ∀ w : Word, (decode w).isUnhandled = unhandledWord w ∧ (unhandledWord w = true → decode w = .unhandled w)

/-- R92: the six fields, as numbers of the word and as bits of its two bytes. -/
def Obligations.FieldsOfAWord : Prop :=
  ∀ hi lo : Byte, ∀ w : Word, w = wordOfBytes hi lo →
    (family w).toNat = w.toNat / 4096 ∧ (fieldX w).val = w.toNat / 256 % 16 ∧ (fieldY w).val = w.toNat / 16 % 16 ∧
    (fieldN w).toNat = w.toNat % 16 ∧ (fieldNN w).toNat = w.toNat % 256 ∧ (fieldNNN w).toNat = w.toNat % 4096 ∧
    (family w).toNat = hi.toNat / 16 ∧ (fieldX w).val = hi.toNat % 16 ∧ (fieldY w).val = lo.toNat / 16 ∧
    (fieldN w).toNat = lo.toNat % 16 ∧ fieldNN w = lo

/-- R97, R102: words written out from the encodings decode to what they stand for, one or more a family, eight of them
from table B7 of 95_test_vectors.md. Three have ignored bits that are not 0 (R98): 05EE by the spec's decision D10, 5127
and 912F by D11 (log 15). That an unhandled instruction carries its word is the model's reading (log 5). -/
def Obligations.SampleWordsDecode : Prop :=
  decode 0x00E0#16 = .op00E0 ∧ decode 0x05EE#16 = .op00EE ∧ decode 0x1ABC#16 = .op1NNN 0xABC#12 ∧
  decode 0x2300#16 = .op2NNN 0x300#12 ∧ decode 0x332A#16 = .op3XNN 3 0x2A#8 ∧ decode 0x432A#16 = .op4XNN 3 0x2A#8 ∧
  decode 0x5127#16 = .op5XY0 1 2 ∧ decode 0x6A2F#16 = .op6XNN 10 0x2F#8 ∧ decode 0x7120#16 = .op7XNN 1 0x20#8 ∧
  decode 0x8AB4#16 = .op8XY4 10 11 ∧ decode 0x812E#16 = .op8XYE 1 2 ∧ decode 0x800F#16 = .unhandled 0x800F#16 ∧
  decode 0x912F#16 = .op9XY0 1 2 ∧ decode 0xA2F0#16 = .opANNN 0x2F0#12 ∧ decode 0xB300#16 = .opBNNN 0x300#12 ∧
  decode 0xC30F#16 = .opCXNN 3 0x0F#8 ∧ decode 0xD12A#16 = .opDXYN 1 2 0xA#4 ∧ decode 0xE19E#16 = .opEX9E 1 ∧
  decode 0xE10E#16 = .unhandled 0xE10E#16 ∧ decode 0xF965#16 = .opFX65 9 ∧ decode 0xFFFF#16 = .unhandled 0xFFFF#16

/-! ### The step (60_exceptions.md) -/

/-- R206, R67: where `step` acts and the two bytes at pc decode to an instruction, the step is that instruction. Nothing
stands around `exec`: the meanings move pc themselves. -/
def Obligations.StepRunsDecodedInstruction : Prop :=
  ∀ (s : State) (i : Instr), s.runState = .playing → s.fault = none → s.pc.toNat ≤ 0x0FFE →
    decodeBytes [s.readByte s.pc.toNat, s.readByte (s.pc.toNat + 1)] = .ok (i, []) → step s = exec i s

/-- R205, R206: the whole transaction with its result, case by case. The fault latch and the results Idle, Executed and
Fault are the spec's decisions D2, D33; the bound on pc is D5. -/
def Obligations.StepTransaction : Prop :=
  ∀ s : State,
    (¬(s.runState = .playing ∧ s.fault = none) → step s = .next s ∧ stepResult s = some .idle) ∧
    (s.runState = .playing → s.fault = none → 0x0FFE < s.pc.toNat →
      step s = .next { s with fault := some .fetchFault } ∧ stepResult s = some (.fault .fetchFault)) ∧
    (s.runState = .playing → s.fault = none → s.pc.toNat ≤ 0x0FFE →
      ∀ i, i = decode (s.readByte s.pc.toNat ++ s.readByte (s.pc.toNat + 1)) →
        (∀ c, faultCondition i s = some c →
          step s = .next { s with fault := some c } ∧ stepResult s = some (.fault c)) ∧
        (faultCondition i s = none →
          (∃ t, exec i s = .next t ∧ step s = .next t ∧ t.fault = none) ∧
          stepResult s = some (if i.isUnhandled then .unhandled else .executed)))

/-- R10, R201, R202: an instruction faults exactly on the condition of its row, and then only the latch changes; on any
other state it leaves the latch alone. The faults are the spec's decisions D2 to D8 (log 4, 21). -/
def Obligations.FaultsArePrecise : Prop :=
  ∀ (i : Instr) (s : State),
    (∀ c, faultCondition i s = some c → exec i s = .next { s with fault := some c }) ∧
    (faultCondition i s = none → ∃ t, exec i s = .next t ∧ t.fault = s.fault)

/-- R201, R219: with a fault latched `step` and `tick_timers` change nothing, and no transaction but `init` changes the
latch. The spec's decisions D2, D31 (log 4, 20), and D28 for `init` (log 19). -/
def Obligations.FaultedMachineIsFrozen : Prop :=
  ∀ s : State, s.fault ≠ none →
    transact .step s = .next s ∧ stepResult s = some .idle ∧ transact .tickTimers s = .next s ∧
    (∀ tx, tx ≠ .init → ∃ t, transact tx s = .next t ∧ t.fault = s.fault) ∧
    (∃ t, transact .init s = .next t ∧ t.fault = none)

/-- R99, R200, R201: nothing ever stops the model: every instruction, in every state, and every transaction has a next
state. That a fault is a next state is the model's reading of R201 (log 4). -/
def Obligations.NothingStopsTheModel : Prop :=
  (∀ (i : Instr) (s : State), Completes (exec i s)) ∧ (∀ (tx : Txn) (s : State), Completes (transact tx s))

/-! ### Invariants (10_state.md R38) -/

/-- R38: every step keeps the invariant: memory in canonical form (the model's own, log 18), pc at most 0x10FE, stack
entries at most 0x1000. -/
def Obligations.StepKeepsInvariant : Prop := ∀ s t : State, StateInv s → step s = .next t → StateInv t

/-- R38: so does every other transaction of the host. -/
def Obligations.HostKeepsInvariant : Prop :=
  ∀ (tx : Txn) (s t : State), tx ≠ .step → StateInv s → transact tx s = .next t → StateInv t

/-- R37, R38: the state after reset meets the invariant. -/
def Obligations.ResetMeetsInvariant : Prop := StateInv State.reset

/-- Log 18: the listing of memory is canonical: two memories in canonical form that read alike are one memory. The
listing is the model's own. -/
def Obligations.MemoryListingIsCanonical : Prop :=
  ∀ m n : Memory, m.wf → n.wf → (∀ a, a < 4096 → m.read a = n.read a) → m = n

/-! ### Whole-machine rules -/

/-- R22, R23, R27 to R33, R69: what each instruction may write, beside pc and the latch: the general registers of
`writesRegs`, the parts of `writesParts`, and the bytes it stores from I on. In every state, faulting or not.
The part `draws` is the model's own (log 3). -/
def Obligations.InstructionFrames : Prop :=
  ∀ (i : Instr) (s t : State), exec i s = .next t →
    KeepsRegsBut (writesRegs i) s t ∧ KeepsBut (.pc :: .fault :: writesParts i) s t ∧
    KeepsBytesBut (s.dataAddr 0) (storesBytes i) s t

/-- R25: where each instruction leaves pc, row by row, and a fault leaves it alone. The modulus of the sums is the spec's
decision D29 (log 17). -/
def Obligations.PcTable : Prop :=
  ∀ (i : Instr) (s t : State), exec i s = .next t →
    t.pc = if faultCondition i s = none then pcAfter i s else s.pc

/-- R22: what the six flag writers leave in VF when X is not F, and that no other instruction changes VF unless its X is
F. -/
def Obligations.FlagWriters : Prop :=
  (∀ (x y : Reg) (s : State), x ≠ 15 →
    (∃ t, exec (.op8XY4 x y) s = .next t ∧
      t.getV 15 = if (s.getV x).toNat + (s.getV y).toNat > 255 then 1#8 else 0#8) ∧
    (∃ t, exec (.op8XY5 x y) s = .next t ∧ t.getV 15 = if (s.getV x).toNat > (s.getV y).toNat then 1#8 else 0#8) ∧
    (∃ t, exec (.op8XY6 x y) s = .next t ∧ (t.getV 15).toNat = (s.getV x).toNat % 2) ∧
    (∃ t, exec (.op8XY7 x y) s = .next t ∧ t.getV 15 = if (s.getV x).toNat < (s.getV y).toNat then 1#8 else 0#8) ∧
    (∃ t, exec (.op8XYE x y) s = .next t ∧ (t.getV 15).toNat = (s.getV x).toNat / 128)) ∧
  (∀ (x y : Reg) (n : Nibble) (s : State), faultCondition (.opDXYN x y n) s = none →
    ∃ t, exec (.opDXYN x y n) s = .next t ∧
      ((∃ py px, s.pixel py px = true ∧ t.pixel py px = false) → t.getV 15 = 1#8) ∧
      ((¬∃ py px, s.pixel py px = true ∧ t.pixel py px = false) → t.getV 15 = 0#8)) ∧
  (∀ (i : Instr) (s t : State), exec i s = .next t → t.getV 15 ≠ s.getV 15 →
    (∃ x y, i = .op8XY4 x y ∨ i = .op8XY5 x y ∨ i = .op8XY6 x y ∨ i = .op8XY7 x y ∨ i = .op8XYE x y) ∨
    (∃ x y n, i = .opDXYN x y n) ∨ (∃ nn, i = .op6XNN 15 nn ∨ i = .op7XNN 15 nn ∨ i = .opCXNN 15 nn) ∨
    (∃ y, i = .op8XY0 15 y ∨ i = .op8XY1 15 y ∨ i = .op8XY2 15 y ∨ i = .op8XY3 15 y) ∨
    i = .opFX07 15 ∨ i = .opFX0A 15 ∨ i = .opFX65 15)

/-- R36: a program cannot observe ST, redraw, run_state or fault: whatever they hold, an instruction leaves every other
piece of state the same. -/
def Obligations.UnobservableState : Prop :=
  ∀ (i : Instr) (s t : State) (a : Byte) (b : Bool) (r : RunState) (f : Option FaultCause), exec i s = .next t →
    ∃ u, exec i { s with st := a, redraw := b, runState := r, fault := f } = .next u ∧
      u.v = t.v ∧ u.i = t.i ∧ u.pc = t.pc ∧ u.mem = t.mem ∧ u.stk = t.stk ∧ u.sp = t.sp ∧ u.dt = t.dt ∧ u.fb = t.fb ∧
      u.keys = t.keys ∧ u.draws = t.draws

/-- R31: the keypad is read by EX9E, EXA1 and FX0A alone: to any other instruction it makes no difference. The second
clause is about the count of draws, the model's own field (log 3, DESIGN CHOICE), by which the model gives CXNN its random
byte: to any instruction but CXNN the count makes no difference, as R206 says of the byte by the spec's decision D22. -/
def Obligations.KeysAndDrawsReadWhere : Prop :=
  ∀ (i : Instr) (s t : State), exec i s = .next t →
    (∀ k : Word, (∀ x, i ≠ .opEX9E x ∧ i ≠ .opEXA1 x ∧ i ≠ .opFX0A x) →
      exec i { s with keys := k } = .next { t with keys := k }) ∧
    (∀ d : Nat, (∀ x nn, i ≠ .opCXNN x nn) → exec i { s with draws := d } = .next { t with draws := d })

/-! ### Control transfer (40_control_flow.md) -/

/-- R122: 1NNN. -/
def Obligations.JumpToNNN : Prop :=
  Decodes 0xF000#16 0x1000#16 (fun w => .op1NNN (fieldNNN w)) ∧
  ∀ (nnn : Imm12) (s : State), ∃ t, exec (.op1NNN nnn) s = .next t ∧ t.pc.toNat = nnn.toNat ∧
    KeepsRegsBut [] s t ∧ KeepsBut [.pc] s t

/-- R122, R251: a jump to itself leaves the whole state as it is, step after step. -/
def Obligations.SelfJumpHolds : Prop :=
  ∀ s : State, s.runState = .playing → s.fault = none → s.pc.toNat ≤ 0x0FFE →
    s.readByte s.pc.toNat ++ s.readByte (s.pc.toNat + 1) = 0x1#4 ++ (s.pc.setWidth 12) →
    ∀ n, Host.Core.run Sys2Proof.core n s = .next s

/-- R123: 2NNN with a free entry pushes pc + 2 and jumps; with none it latches StackOverflow, the spec's decision D3. -/
def Obligations.CallPushes : Prop :=
  Decodes 0xF000#16 0x2000#16 (fun w => .op2NNN (fieldNNN w)) ∧
  (∀ (nnn : Imm12) (s : State), s.sp.val ≠ 16 → ∃ t, exec (.op2NNN nnn) s = .next t ∧
    t.pc.toNat = nnn.toNat ∧ t.sp.val = s.sp.val + 1 ∧
    (∀ k : Fin 16, t.stk[k] = if k.val = s.sp.val then s.pc + 2#16 else s.stk[k]) ∧
    KeepsRegsBut [] s t ∧ KeepsBut [.pc, .stack] s t) ∧
  (∀ (nnn : Imm12) (s : State), s.sp.val = 16 →
    exec (.op2NNN nnn) s = .next { s with fault := some .stackOverflow })

/-- R121: 00EE with an entry in use pops it into pc, no + 2; with none it latches StackUnderflow, the spec's decision D4
(log 21). That X is ignored is D10 (log 15), the slot convention D32 (log 16). -/
def Obligations.ReturnPops : Prop :=
  Decodes 0xF0FF#16 0x00EE#16 (fun _ => .op00EE) ∧
  (∀ (s : State) (k : Fin 16), s.sp.val = k.val + 1 → ∃ t, exec .op00EE s = .next t ∧
    t.pc = s.stk[k] ∧ t.sp.val = k.val ∧ t.stk = s.stk ∧ KeepsRegsBut [] s t ∧ KeepsBut [.pc, .stack] s t) ∧
  (∀ s : State, s.sp.val = 0 → exec .op00EE s = .next { s with fault := some .stackUnderflow })

/-- R123: a call, and later a return with the stack as the call left it, restores pc to the call site + 2 and SP to what
it was, whatever ran between. -/
def Obligations.ReturnComesBack : Prop :=
  ∀ (nnn : Imm12) (s t u : State), s.sp.val ≠ 16 → exec (.op2NNN nnn) s = .next t → u.sp = t.sp →
    (∀ k : Fin 16, k.val < t.sp.val → u.stk[k] = t.stk[k]) →
    ∃ r, exec .op00EE u = .next r ∧ r.pc = s.pc + 2#16 ∧ r.sp = s.sp

/-- R124, R125: 3XNN and 4XNN. -/
def Obligations.SkipOnImmediate : Prop :=
  Decodes 0xF000#16 0x3000#16 (fun w => .op3XNN (fieldX w) (fieldNN w)) ∧
  Decodes 0xF000#16 0x4000#16 (fun w => .op4XNN (fieldX w) (fieldNN w)) ∧
  ∀ (x : Reg) (nn : Byte) (s : State),
    (∃ t, exec (.op3XNN x nn) s = .next t ∧ t.pc = (if s.getV x = nn then s.pc + 4#16 else s.pc + 2#16) ∧
      KeepsRegsBut [] s t ∧ KeepsBut [.pc] s t) ∧
    (∃ t, exec (.op4XNN x nn) s = .next t ∧ t.pc = (if s.getV x ≠ nn then s.pc + 4#16 else s.pc + 2#16) ∧
      KeepsRegsBut [] s t ∧ KeepsBut [.pc] s t)

/-- R126, R127: 5XY0 and 9XY0. That the low nibble is ignored is the spec's decision D11 (log 15). -/
def Obligations.SkipOnRegister : Prop :=
  Decodes 0xF000#16 0x5000#16 (fun w => .op5XY0 (fieldX w) (fieldY w)) ∧
  Decodes 0xF000#16 0x9000#16 (fun w => .op9XY0 (fieldX w) (fieldY w)) ∧
  ∀ (x y : Reg) (s : State),
    (∃ t, exec (.op5XY0 x y) s = .next t ∧ t.pc = (if s.getV x = s.getV y then s.pc + 4#16 else s.pc + 2#16) ∧
      KeepsRegsBut [] s t ∧ KeepsBut [.pc] s t) ∧
    (∃ t, exec (.op9XY0 x y) s = .next t ∧ t.pc = (if s.getV x ≠ s.getV y then s.pc + 4#16 else s.pc + 2#16) ∧
      KeepsRegsBut [] s t ∧ KeepsBut [.pc] s t)

/-- R128: BNNN adds V0, whatever X is, and the sum, not reduced, is at most 0x10FE. -/
def Obligations.JumpOffsetV0 : Prop :=
  Decodes 0xF000#16 0xB000#16 (fun w => .opBNNN (fieldNNN w)) ∧
  ∀ (nnn : Imm12) (s : State), ∃ t, exec (.opBNNN nnn) s = .next t ∧
    t.pc.toNat = (s.getV 0).toNat + nnn.toNat ∧ t.pc.toNat ≤ 0x10FE ∧ KeepsRegsBut [] s t ∧ KeepsBut [.pc] s t

/-- R129: UNHANDLED only advances pc by 2, whatever its word, and the step says Unhandled. The result is the spec's
decision D9 (log 5, 7). -/
def Obligations.UnhandledAdvances : Prop :=
  (∀ (op : Word) (s : State), ∃ t, exec (.unhandled op) s = .next t ∧ t.pc = s.pc + 2#16 ∧
    KeepsRegsBut [] s t ∧ KeepsBut [.pc] s t) ∧
  (∀ s : State, s.runState = .playing → s.fault = none → s.pc.toNat ≤ 0x0FFE → unhandledWord s.fetch = true →
    step s = .next { s with pc := s.pc + 2#16 } ∧ stepResult s = some .unhandled)

/-! ### Load, arithmetic, logic, shift, random (41_load_and_alu.md) -/

/-- R140, R141: 6XNN and 7XNN; the sum wraps at 256 and VF is left alone unless it is the destination. -/
def Obligations.ImmediateLoadAndAdd : Prop :=
  Decodes 0xF000#16 0x6000#16 (fun w => .op6XNN (fieldX w) (fieldNN w)) ∧
  Decodes 0xF000#16 0x7000#16 (fun w => .op7XNN (fieldX w) (fieldNN w)) ∧
  ∀ (x : Reg) (nn : Byte) (s : State),
    (∃ t, exec (.op6XNN x nn) s = .next t ∧ t.getV x = nn ∧ t.pc = s.pc + 2#16 ∧
      KeepsRegsBut [x] s t ∧ KeepsBut [.pc] s t) ∧
    (∃ t, exec (.op7XNN x nn) s = .next t ∧ (t.getV x).toNat = ((s.getV x).toNat + nn.toNat) % 256 ∧
      t.pc = s.pc + 2#16 ∧ KeepsRegsBut [x] s t ∧ KeepsBut [.pc] s t)

/-- R142 to R145: copy, or, and, exclusive or, bit by bit; VF is left alone unless it is the destination. -/
def Obligations.CopyAndLogic : Prop :=
  Decodes 0xF00F#16 0x8000#16 (fun w => .op8XY0 (fieldX w) (fieldY w)) ∧
  Decodes 0xF00F#16 0x8001#16 (fun w => .op8XY1 (fieldX w) (fieldY w)) ∧
  Decodes 0xF00F#16 0x8002#16 (fun w => .op8XY2 (fieldX w) (fieldY w)) ∧
  Decodes 0xF00F#16 0x8003#16 (fun w => .op8XY3 (fieldX w) (fieldY w)) ∧
  ∀ (x y : Reg) (s : State),
    (∃ t, exec (.op8XY0 x y) s = .next t ∧ t.getV x = s.getV y ∧ t.pc = s.pc + 2#16 ∧
      KeepsRegsBut [x] s t ∧ KeepsBut [.pc] s t) ∧
    (∃ t, exec (.op8XY1 x y) s = .next t ∧
      (∀ k, k < 8 → (t.getV x).getLsbD k = ((s.getV x).getLsbD k || (s.getV y).getLsbD k)) ∧ t.pc = s.pc + 2#16 ∧
      KeepsRegsBut [x] s t ∧ KeepsBut [.pc] s t) ∧
    (∃ t, exec (.op8XY2 x y) s = .next t ∧
      (∀ k, k < 8 → (t.getV x).getLsbD k = ((s.getV x).getLsbD k && (s.getV y).getLsbD k)) ∧ t.pc = s.pc + 2#16 ∧
      KeepsRegsBut [x] s t ∧ KeepsBut [.pc] s t) ∧
    (∃ t, exec (.op8XY3 x y) s = .next t ∧
      (∀ k, k < 8 → (t.getV x).getLsbD k = ((s.getV x).getLsbD k != (s.getV y).getLsbD k)) ∧ t.pc = s.pc + 2#16 ∧
      KeepsRegsBut [x] s t ∧ KeepsBut [.pc] s t)

/-- R146: 8XY4. VF holds the carry in every case, so with X = F the sum is lost. -/
def Obligations.AddWithCarry : Prop :=
  Decodes 0xF00F#16 0x8004#16 (fun w => .op8XY4 (fieldX w) (fieldY w)) ∧
  ∀ (x y : Reg) (s : State), ∃ t, exec (.op8XY4 x y) s = .next t ∧
    (x ≠ 15 → (t.getV x).toNat = ((s.getV x).toNat + (s.getV y).toNat) % 256) ∧
    (t.getV 15).toNat = ((s.getV x).toNat + (s.getV y).toNat) / 256 ∧
    t.pc = s.pc + 2#16 ∧ KeepsRegsBut [x, 15] s t ∧ KeepsBut [.pc] s t

/-- R147, R149, R153: 8XY5 and 8XY7. The difference is left in VX in every case, so with X = F the flag is lost; the flag
is strict. The order and the reading of the operands are the spec's decision D15 (log 8). -/
def Obligations.Subtract : Prop :=
  Decodes 0xF00F#16 0x8005#16 (fun w => .op8XY5 (fieldX w) (fieldY w)) ∧
  Decodes 0xF00F#16 0x8007#16 (fun w => .op8XY7 (fieldX w) (fieldY w)) ∧
  ∀ (x y : Reg) (s : State),
    (∃ t, exec (.op8XY5 x y) s = .next t ∧
      (t.getV x).toNat = ((s.getV x).toNat + 256 - (s.getV y).toNat) % 256 ∧
      (x ≠ 15 → t.getV 15 = if (s.getV x).toNat > (s.getV y).toNat then 1#8 else 0#8) ∧
      t.pc = s.pc + 2#16 ∧ KeepsRegsBut [x, 15] s t ∧ KeepsBut [.pc] s t) ∧
    (∃ t, exec (.op8XY7 x y) s = .next t ∧
      (t.getV x).toNat = ((s.getV y).toNat + 256 - (s.getV x).toNat) % 256 ∧
      (x ≠ 15 → t.getV 15 = if (s.getV x).toNat < (s.getV y).toNat then 1#8 else 0#8) ∧
      t.pc = s.pc + 2#16 ∧ KeepsRegsBut [x, 15] s t ∧ KeepsBut [.pc] s t)

/-- R148, R150, R153: 8XY6 and 8XYE shift VX in place by one; Y is not used. With X = F the flag is lost, the spec's
decision D15 (log 8). -/
def Obligations.Shift : Prop :=
  Decodes 0xF00F#16 0x8006#16 (fun w => .op8XY6 (fieldX w) (fieldY w)) ∧
  Decodes 0xF00F#16 0x800E#16 (fun w => .op8XYE (fieldX w) (fieldY w)) ∧
  ∀ (x y : Reg) (s : State),
    (∃ t, exec (.op8XY6 x y) s = .next t ∧ (t.getV x).toNat = (s.getV x).toNat / 2 ∧
      (x ≠ 15 → (t.getV 15).toNat = (s.getV x).toNat % 2) ∧
      t.pc = s.pc + 2#16 ∧ KeepsRegsBut [x, 15] s t ∧ KeepsBut [.pc] s t) ∧
    (∃ t, exec (.op8XYE x y) s = .next t ∧ (t.getV x).toNat = 2 * (s.getV x).toNat % 256 ∧
      (x ≠ 15 → (t.getV 15).toNat = (s.getV x).toNat / 128) ∧
      t.pc = s.pc + 2#16 ∧ KeepsRegsBut [x, 15] s t ∧ KeepsBut [.pc] s t)

/-- R151: CXNN. The byte drawn is the free value `Config.rnd` of this draw, of which nothing is known, so the statement
holds for every draw; the draw is used up (log 3). Whatever it is, no bit outside NN is set. -/
def Obligations.RandomUnderMask : Prop :=
  Decodes 0xF000#16 0xC000#16 (fun w => .opCXNN (fieldX w) (fieldNN w)) ∧
  ∀ (x : Reg) (nn : Byte) (s : State), ∃ t, exec (.opCXNN x nn) s = .next t ∧
    t.getV x = Config.rnd s.draws &&& nn ∧ t.getV x &&& ~~~nn = 0#8 ∧ t.draws = s.draws + 1 ∧
    t.pc = s.pc + 2#16 ∧ KeepsRegsBut [x] s t ∧ KeepsBut [.pc, .draws] s t

/-! ### The index register, loads and stores (42_index_and_memory.md) -/

/-- R160: ANNN. -/
def Obligations.LoadIndex : Prop :=
  Decodes 0xF000#16 0xA000#16 (fun w => .opANNN (fieldNNN w)) ∧
  ∀ (nnn : Imm12) (s : State), ∃ t, exec (.opANNN nnn) s = .next t ∧ t.i.toNat = nnn.toNat ∧
    t.pc = s.pc + 2#16 ∧ KeepsRegsBut [] s t ∧ KeepsBut [.pc, .index] s t

/-- R161: FX1E; the wrap at 2^16 is the spec's decision D21 (log 14). -/
def Obligations.AddToIndex : Prop :=
  Decodes 0xF0FF#16 0xF01E#16 (fun w => .opFX1E (fieldX w)) ∧
  ∀ (x : Reg) (s : State), ∃ t, exec (.opFX1E x) s = .next t ∧
    t.i.toNat = (s.i.toNat + (s.getV x).toNat) % 65536 ∧
    t.pc = s.pc + 2#16 ∧ KeepsRegsBut [] s t ∧ KeepsBut [.pc, .index] s t

/-- R162: FX29 for a hex digit, whatever FONT_BASE is within D12, and the glyph lies below 0x200; on a larger VX it
latches FontDigitFault, the spec's decision D8 (log 1, 21). -/
def Obligations.GlyphAddress : Prop :=
  Decodes 0xF0FF#16 0xF029#16 (fun w => .opFX29 (fieldX w)) ∧
  (∀ (x : Reg) (s : State), (s.getV x).toNat ≤ 15 → ∃ t, exec (.opFX29 x) s = .next t ∧
    t.i.toNat = Config.fontBase.val + 5 * (s.getV x).toNat ∧ t.i.toNat + 5 ≤ 0x200 ∧
    t.pc = s.pc + 2#16 ∧ KeepsRegsBut [] s t ∧ KeepsBut [.pc, .index] s t) ∧
  (∀ (x : Reg) (s : State), 15 < (s.getV x).toNat →
    exec (.opFX29 x) s = .next { s with fault := some .fontDigitFault })

/-- R163: FX33 stores the hundreds, tens and ones at I, I + 1 and I + 2 and nothing else; beyond memory it latches
DataAddressFault, the spec's decision D6 (log 21). -/
def Obligations.StoreDecimal : Prop :=
  Decodes 0xF0FF#16 0xF033#16 (fun w => .opFX33 (fieldX w)) ∧
  (∀ (x : Reg) (s : State), s.i.toNat + 2 ≤ 0xFFF → ∃ t, exec (.opFX33 x) s = .next t ∧
    (t.readByte s.i.toNat).toNat = (s.getV x).toNat / 100 ∧
    (t.readByte (s.i.toNat + 1)).toNat = (s.getV x).toNat / 10 % 10 ∧
    (t.readByte (s.i.toNat + 2)).toNat = (s.getV x).toNat % 10 ∧
    KeepsBytesBut (s.dataAddr 0) 3 s t ∧
    t.pc = s.pc + 2#16 ∧ KeepsRegsBut [] s t ∧ KeepsBut [.pc, .memory] s t) ∧
  (∀ (x : Reg) (s : State), 0xFFF < s.i.toNat + 2 →
    exec (.opFX33 x) s = .next { s with fault := some .dataAddressFault })

/-- R164, R166: FX55 stores V0 to VX from I on and nothing else, and I is unchanged; beyond memory it latches
DataAddressFault with no byte written. The direction and I unchanged are the spec's decision D20, the fault D6 (log 12,
21). -/
def Obligations.StoreBlock : Prop :=
  Decodes 0xF0FF#16 0xF055#16 (fun w => .opFX55 (fieldX w)) ∧
  (∀ (x : Reg) (s : State), s.i.toNat + x.val ≤ 0xFFF → ∃ t, exec (.opFX55 x) s = .next t ∧
    (∀ r : Reg, r ≤ x → t.readByte (s.i.toNat + r.val) = s.getV r) ∧
    KeepsBytesBut (s.dataAddr 0) (x.val + 1) s t ∧
    t.pc = s.pc + 2#16 ∧ KeepsRegsBut [] s t ∧ KeepsBut [.pc, .memory] s t) ∧
  (∀ (x : Reg) (s : State), 0xFFF < s.i.toNat + x.val →
    exec (.opFX55 x) s = .next { s with fault := some .dataAddressFault })

/-- R165, R166: FX65 loads V0 to VX from I on; the registers above VX, I and memory are unchanged; beyond memory it
latches DataAddressFault with no register written. The spec's decisions D20, D6 (log 12, 21). -/
def Obligations.LoadBlock : Prop :=
  Decodes 0xF0FF#16 0xF065#16 (fun w => .opFX65 (fieldX w)) ∧
  (∀ (x : Reg) (s : State), s.i.toNat + x.val ≤ 0xFFF → ∃ t, exec (.opFX65 x) s = .next t ∧
    (∀ r : Reg, t.getV r = if r ≤ x then s.readByte (s.i.toNat + r.val) else s.getV r) ∧
    t.pc = s.pc + 2#16 ∧ KeepsBut [.pc] s t) ∧
  (∀ (x : Reg) (s : State), 0xFFF < s.i.toNat + x.val →
    exec (.opFX65 x) s = .next { s with fault := some .dataAddressFault })

/-- R73: bytes FX55 stores over the next instruction are what the next fetch reads. That FX55 is the store is the spec's
decision D20 (log 12). -/
def Obligations.StoreSeenByNextFetch : Prop :=
  ∀ (x j k : Reg) (s t : State), exec (.opFX55 x) s = .next t → s.i.toNat + x.val ≤ 0xFFF → k ≤ x → k.val = j.val + 1 →
    (s.pc + 2#16).toNat = s.i.toNat + j.val → t.fetch = s.getV j ++ s.getV k

/-! ### The display (43_display.md) -/

/-- R180: 00E0 turns every pixel off and raises redraw, whatever stood there. That X is ignored is the spec's decision
D10 (log 15). -/
def Obligations.ClearFrame : Prop :=
  Decodes 0xF0FF#16 0x00E0#16 (fun _ => .op00E0) ∧
  ∀ s : State, ∃ t, exec .op00E0 s = .next t ∧ (∀ y x, t.pixel y x = false) ∧ t.redraw = true ∧
    t.pc = s.pc + 2#16 ∧ KeepsRegsBut [] s t ∧ KeepsBut [.pc, .pixels, .redraw] s t

/-- R181: DXYN in closed form: every pixel is its old value exclusive-or the sprite's bit there, clipped and not wrapped;
VF is 1 if some pixel was on under a set bit and 0 otherwise; redraw is raised. With bytes beyond memory it latches
DataAddressFault. The spec's decisions D6, D15 to D18 (log 8, 13, 21). -/
def Obligations.DrawSprite : Prop :=
  Decodes 0xF000#16 0xD000#16 (fun w => .opDXYN (fieldX w) (fieldY w) (fieldN w)) ∧
  (∀ (x y : Reg) (n : Nibble) (s : State), n = 0#4 ∨ s.i.toNat + n.toNat - 1 ≤ 0xFFF →
    ∃ t, exec (.opDXYN x y n) s = .next t ∧
      (∀ py px, t.pixel py px =
        (s.pixel py px != spriteBit s (s.getV x).toNat (s.getV y).toNat n.toNat py px)) ∧
      ((∃ py px, s.pixel py px = true ∧ spriteBit s (s.getV x).toNat (s.getV y).toNat n.toNat py px = true) →
        t.getV 15 = 1#8) ∧
      ((¬∃ py px, s.pixel py px = true ∧ spriteBit s (s.getV x).toNat (s.getV y).toNat n.toNat py px = true) →
        t.getV 15 = 0#8) ∧
      t.redraw = true ∧ t.pc = s.pc + 2#16 ∧ KeepsRegsBut [15] s t ∧ KeepsBut [.pc, .pixels, .redraw] s t) ∧
  (∀ (x y : Reg) (n : Nibble) (s : State), n ≠ 0#4 → 0xFFF < s.i.toNat + n.toNat - 1 →
    exec (.opDXYN x y n) s = .next { s with fault := some .dataAddressFault })

/-- R181: drawing a sprite twice at one place, the coordinates not in VF, restores the frame, as case 9 says. The clause
on VF is the model's choice where case 9 and the pseudocode of R181 differ (log 24, DEDUCED): by the pseudocode the second
draw leaves 1 exactly if a set bit in range fell on a pixel that was off at first, where case 9 asks for a set bit in
range only. The 0 left otherwise is the spec's decision D16, the operands read first D15 (log 13, 8). The coordinate sums
without an 8-bit wrap are D17 and the bytes checked D6, D18 (log 13, 21). -/
def Obligations.DrawTwiceRestores : Prop :=
  ∀ (x y : Reg) (n : Nibble) (s t : State), x ≠ 15 → y ≠ 15 → n = 0#4 ∨ s.i.toNat + n.toNat - 1 ≤ 0xFFF →
    exec (.opDXYN x y n) s = .next t →
    ∃ u, exec (.opDXYN x y n) t = .next u ∧ (∀ py px, u.pixel py px = s.pixel py px) ∧
      (u.getV 15 = 1#8 ↔
        ∃ py px, s.pixel py px = false ∧ spriteBit s (s.getV x).toNat (s.getV y).toNat n.toNat py px = true)

/-! ### Keypad and timers (44_keypad_and_timers.md, 60_exceptions.md) -/

/-- R190, R191: EX9E and EXA1 for a key number; on a larger VX they latch KeyIndexFault, the spec's decision D7 (log 21). -/
def Obligations.SkipOnKey : Prop :=
  Decodes 0xF0FF#16 0xE09E#16 (fun w => .opEX9E (fieldX w)) ∧
  Decodes 0xF0FF#16 0xE0A1#16 (fun w => .opEXA1 (fieldX w)) ∧
  (∀ (x : Reg) (s : State), (s.getV x).toNat ≤ 15 →
    (∃ t, exec (.opEX9E x) s = .next t ∧
      t.pc = (if s.keys.getLsbD (s.getV x).toNat = true then s.pc + 4#16 else s.pc + 2#16) ∧
      KeepsRegsBut [] s t ∧ KeepsBut [.pc] s t) ∧
    (∃ t, exec (.opEXA1 x) s = .next t ∧
      t.pc = (if s.keys.getLsbD (s.getV x).toNat = true then s.pc + 2#16 else s.pc + 4#16) ∧
      KeepsRegsBut [] s t ∧ KeepsBut [.pc] s t)) ∧
  (∀ (x : Reg) (s : State), 15 < (s.getV x).toNat →
    exec (.opEX9E x) s = .next { s with fault := some .keyIndexFault } ∧
    exec (.opEXA1 x) s = .next { s with fault := some .keyIndexFault })

/-- R192: FX0A with no key down changes nothing; with some key down VX gets the highest number down and pc advances. That
the scan ascends is the spec's decision D14 (log 10). -/
def Obligations.PollForKey : Prop :=
  Decodes 0xF0FF#16 0xF00A#16 (fun w => .opFX0A (fieldX w)) ∧
  (∀ (x : Reg) (s : State), s.keys = 0#16 → exec (.opFX0A x) s = .next s) ∧
  (∀ (x : Reg) (s : State) (k : Fin 16), s.keys.getLsbD k.val = true →
    (∀ j : Fin 16, k < j → s.keys.getLsbD j.val = false) →
    ∃ t, exec (.opFX0A x) s = .next t ∧ (t.getV x).toNat = k.val ∧ t.pc = s.pc + 2#16 ∧
      KeepsRegsBut [x] s t ∧ KeepsBut [.pc] s t)

/-- R193 to R195: FX07 reads the delay timer, FX15 and FX18 write the delay and the sound timer, and the buzzer follows
the sound timer at once (R213). Timers and directions are the spec's decision D19 (log 11). -/
def Obligations.TimerCopies : Prop :=
  Decodes 0xF0FF#16 0xF007#16 (fun w => .opFX07 (fieldX w)) ∧
  Decodes 0xF0FF#16 0xF015#16 (fun w => .opFX15 (fieldX w)) ∧
  Decodes 0xF0FF#16 0xF018#16 (fun w => .opFX18 (fieldX w)) ∧
  ∀ (x : Reg) (s : State),
    (∃ t, exec (.opFX07 x) s = .next t ∧ t.getV x = s.dt ∧ t.pc = s.pc + 2#16 ∧
      KeepsRegsBut [x] s t ∧ KeepsBut [.pc] s t) ∧
    (∃ t, exec (.opFX15 x) s = .next t ∧ t.dt = s.getV x ∧ t.pc = s.pc + 2#16 ∧
      KeepsRegsBut [] s t ∧ KeepsBut [.pc, .delay] s t) ∧
    (∃ t, exec (.opFX18 x) s = .next t ∧ t.st = s.getV x ∧ t.pc = s.pc + 2#16 ∧
      (buzzerActive t = true ↔ s.getV x ≠ 0#8) ∧ KeepsRegsBut [] s t ∧ KeepsBut [.pc, .sound] s t)

/-- R218: a tick subtracts one from each timer that is not zero, each on its own, and changes nothing else, so the
buzzer (R213) sounds on while more than one unit was left; outside Playing, or with a fault latched (the spec's decision
D31, log 20), it changes nothing. -/
def Obligations.TimersCountDown : Prop :=
  (∀ s : State, s.runState = .playing → s.fault = none → ∃ t, transact .tickTimers s = .next t ∧
    t.dt.toNat = s.dt.toNat - 1 ∧ t.st.toNat = s.st.toNat - 1 ∧ (buzzerActive t = true ↔ 1 < s.st.toNat) ∧
    KeepsRegsBut [] s t ∧ KeepsBut [.delay, .sound] s t) ∧
  (∀ s : State, s.runState ≠ .playing ∨ s.fault ≠ none → transact .tickTimers s = .next s)

/-! ### The host's other transactions (60_exceptions.md, 70_reset_and_hazards.md) -/

/-- R208: the run state after every transaction, cell by cell, and that `pause`, `resume` and `quit` change nothing else
(R209 to R211). The cells the document does not draw are the spec's decisions D23, D24, D28 (log 19). -/
def Obligations.RunStateTable : Prop :=
  (∀ (tx : Txn) (s t : State), transact tx s = .next t → t.runState = runStateAfter tx s) ∧
  (∀ (tx : Txn) (s : State), tx = .pause ∨ tx = .resume ∨ tx = .quit →
    ∃ t, transact tx s = .next t ∧ KeepsRegsBut [] s t ∧ KeepsBut [.runState] s t)

/-- R241: `init` leaves every piece of state at its reset value: the font table at FONT_BASE, all else
0, the run state Ready, no fault, so that `step` and `tick_timers` do nothing. That it is
accepted in every state, Quit and a latched fault too, is R242, the spec's decision D28 (log 19). -/
def Obligations.InitResets : Prop :=
  ∀ s : State, ∃ t, transact .init s = .next t ∧ (∀ r, t.getV r = 0#8) ∧ t.i = 0#16 ∧ t.pc = 0#16 ∧
    (∀ k, k < 80 → t.readByte (Config.fontBase.val + k) = Config.fontTable.getD k 0#8) ∧
    (∀ a, ¬(Config.fontBase.val ≤ a ∧ a < Config.fontBase.val + 80) → t.readByte a = 0#8) ∧
    (∀ k : Fin 16, t.stk[k] = 0#16) ∧ t.sp.val = 0 ∧ t.dt = 0#8 ∧ t.st = 0#8 ∧ (∀ y x, t.pixel y x = false) ∧
    t.keys = 0#16 ∧ t.redraw = false ∧ t.runState = .ready ∧ t.fault = none ∧
    step t = .next t ∧ transact .tickTimers t = .next t

/-- R240, R241: the one reset is `init`: it gives the state after reset, but that the draws made stay used up, the model's
own count (log 3). That it does so from every state is R242, the spec's decision D28 (log 19). -/
def Obligations.ResetIsInit : Prop :=
  ∀ s : State, transact .init s = .next { State.reset with draws := s.draws }

/-- R37, R246: the state a program starts in: `init`, keys as the host sets them, `load` of a ROM that fits. Memory is the
font, the ROM and zeros. That `init` is accepted in every state is R242, the spec's decision D28 (log 19), and the keypad
as state D30 (log 20). -/
def Obligations.BootState : Prop :=
  ∀ (s : State) (k : Word) (rom : List Byte), rom.length ≤ 3584 →
    ∃ t u r, transact .init s = .next t ∧ transact (.setKeys k) t = .next u ∧ transact (.load rom) u = .next r ∧
      (∀ q, r.getV q = 0#8) ∧ r.i = 0#16 ∧ r.pc = 0x200#16 ∧ r.sp.val = 0 ∧ r.dt = 0#8 ∧ r.st = 0#8 ∧
      (∀ y x, r.pixel y x = false) ∧ r.redraw = false ∧ r.keys = k ∧ r.runState = .playing ∧ r.fault = none ∧
      (∀ j, j < 80 → r.readByte (Config.fontBase.val + j) = Config.fontTable.getD j 0#8) ∧
      (∀ j (h : j < rom.length), r.readByte (0x200 + j) = rom[j]) ∧
      (∀ a, ¬(Config.fontBase.val ≤ a ∧ a < Config.fontBase.val + 80) → ¬(0x200 ≤ a ∧ a < 0x200 + rom.length) →
        r.readByte a = 0#8)

/-- R244: `load` in Ready of at most 3584 bytes copies them from 0x200 on, sets pc and plays; a longer ROM changes
nothing; outside Ready it is refused with no change. -/
def Obligations.LoadPlacesRom : Prop :=
  (∀ (rom : List Byte) (s : State), s.runState = .ready → rom.length ≤ 3584 →
    loadResult rom s = .loaded ∧ ∃ t, transact (.load rom) s = .next t ∧
      (∀ k (h : k < rom.length), t.readByte (0x200 + k) = rom[k]) ∧ KeepsBytesBut 0x200 rom.length s t ∧
      t.pc = 0x200#16 ∧ t.runState = .playing ∧ KeepsRegsBut [] s t ∧ KeepsBut [.memory, .pc, .runState] s t) ∧
  (∀ (rom : List Byte) (s : State), s.runState = .ready → 3584 < rom.length →
    loadResult rom s = .romTooLarge ∧ transact (.load rom) s = .next s) ∧
  (∀ (rom : List Byte) (s : State), s.runState ≠ .ready →
    loadResult rom s = .loadRefused ∧ transact (.load rom) s = .next s)

/-- R207, R215: `set_keys` writes all 16 keys and `frame_consumed` clears redraw, in every run state and while faulted,
and neither changes anything else. The keypad as state is the spec's decision D30 (log 20). -/
def Obligations.KeysAndFrameCommands : Prop :=
  ∀ s : State,
    (∀ k : Word, ∃ t, transact (.setKeys k) s = .next t ∧ t.keys = k ∧ KeepsRegsBut [] s t ∧ KeepsBut [.keys] s t) ∧
    (∃ t, transact .frameConsumed s = .next t ∧ t.redraw = false ∧ KeepsRegsBut [] s t ∧ KeepsBut [.redraw] s t)
end

