-- ==== Sys2Proof/Laws/Encoding.lean ====
section
/-! SUPPORT. The laws of the formats: the fields of a built word, a word built from its own fields, and a built word under
the masks of the opcode map (R92, R93). -/

namespace Sys2Proof.Laws

/-! ### The fields of a built word -/

theorem formatNNN_fields (f : Nibble) (nnn : Imm12) :
    family (formatNNN f nnn) = f ∧ fieldNNN (formatNNN f nnn) = nnn := by
  unfold family fieldNNN formatNNN
  constructor <;> apply BitVec.eq_of_getLsbD_eq <;> intro i hi <;>
    simp only [BitVec.getLsbD_extractLsb', BitVec.getLsbD_append, hi] <;> simp [hi]

theorem formatXNN_fields (f : Nibble) (x : Reg) (nn : Byte) :
    family (formatXNN f x nn) = f ∧ fieldX (formatXNN f x nn) = x ∧ fieldNN (formatXNN f x nn) = nn := by
  have hf : BitVec.extractLsb' 12 4 (f ++ (BitVec.ofFin x : Nibble) ++ nn) = f := by
    apply BitVec.eq_of_getLsbD_eq
    intro i hi
    simp only [BitVec.getLsbD_extractLsb', BitVec.getLsbD_append, hi]
    simp [show ¬12 + i < 8 by omega, show ¬12 + i - 8 < 4 by omega, show 12 + i - 8 - 4 = i by omega]
  have hx : BitVec.extractLsb' 8 4 (f ++ (BitVec.ofFin x : Nibble) ++ nn) = BitVec.ofFin x := by
    apply BitVec.eq_of_getLsbD_eq
    intro i hi
    simp only [BitVec.getLsbD_extractLsb', BitVec.getLsbD_append, hi]
    simp [show ¬8 + i < 8 by omega, show 8 + i - 8 = i by omega, hi]
  have hn : BitVec.extractLsb' 0 8 (f ++ (BitVec.ofFin x : Nibble) ++ nn) = nn := by
    apply BitVec.eq_of_getLsbD_eq
    intro i hi
    simp only [BitVec.getLsbD_extractLsb', BitVec.getLsbD_append, hi]
    simp [hi]
  unfold family fieldX fieldNN formatXNN
  rw [hf, hx, hn]
  exact ⟨rfl, rfl, rfl⟩

theorem formatXYN_fields (f : Nibble) (x y : Reg) (n : Nibble) :
    family (formatXYN f x y n) = f ∧ fieldX (formatXYN f x y n) = x ∧ fieldY (formatXYN f x y n) = y ∧
    fieldN (formatXYN f x y n) = n := by
  have hf : BitVec.extractLsb' 12 4 (f ++ (BitVec.ofFin x : Nibble) ++ (BitVec.ofFin y : Nibble) ++ n) = f := by
    apply BitVec.eq_of_getLsbD_eq
    intro i hi
    simp only [BitVec.getLsbD_extractLsb', BitVec.getLsbD_append, hi]
    simp [show ¬12 + i < 4 by omega, show ¬12 + i - 4 < 4 by omega, show ¬12 + i - 4 - 4 < 4 by omega,
      show 12 + i - 4 - 4 - 4 = i by omega]
  have hx : BitVec.extractLsb' 8 4 (f ++ (BitVec.ofFin x : Nibble) ++ (BitVec.ofFin y : Nibble) ++ n) = BitVec.ofFin x := by
    apply BitVec.eq_of_getLsbD_eq
    intro i hi
    simp only [BitVec.getLsbD_extractLsb', BitVec.getLsbD_append, hi]
    simp [show ¬8 + i < 4 by omega, show ¬8 + i - 4 < 4 by omega, show 8 + i - 4 - 4 = i by omega, hi]
  have hy : BitVec.extractLsb' 4 4 (f ++ (BitVec.ofFin x : Nibble) ++ (BitVec.ofFin y : Nibble) ++ n) = BitVec.ofFin y := by
    apply BitVec.eq_of_getLsbD_eq
    intro i hi
    simp only [BitVec.getLsbD_extractLsb', BitVec.getLsbD_append, hi]
    simp [show ¬4 + i < 4 by omega, show 4 + i - 4 = i by omega, hi]
  have hn : BitVec.extractLsb' 0 4 (f ++ (BitVec.ofFin x : Nibble) ++ (BitVec.ofFin y : Nibble) ++ n) = n := by
    apply BitVec.eq_of_getLsbD_eq
    intro i hi
    simp only [BitVec.getLsbD_extractLsb', BitVec.getLsbD_append, hi]
    simp [hi]
  unfold family fieldX fieldY fieldN formatXYN
  rw [hf, hx, hy, hn]
  exact ⟨rfl, rfl, rfl, rfl⟩

/-! ### A word built from its own fields -/

theorem formatNNN_of_fields (w : Word) : formatNNN (family w) (fieldNNN w) = w := by
  unfold formatNNN family fieldNNN
  apply BitVec.eq_of_getLsbD_eq
  intro i hi
  simp only [BitVec.getLsbD_append, BitVec.getLsbD_extractLsb']
  by_cases h : i < 12
  · simp [h]
  · simp [h, show i - 12 < 4 by omega, show 12 + (i - 12) = i by omega]

theorem formatXNN_of_fields (w : Word) : formatXNN (family w) (fieldX w) (fieldNN w) = w := by
  unfold formatXNN family fieldX fieldNN
  apply BitVec.eq_of_getLsbD_eq
  intro i hi
  simp only [BitVec.getLsbD_append, BitVec.ofFin_toFin, BitVec.getLsbD_extractLsb']
  by_cases h : i < 8
  · simp [h]
  · by_cases h' : i - 8 < 4
    · simp [h, h', show 8 + (i - 8) = i by omega]
    · simp [h, h', show i - 8 - 4 < 4 by omega, show 12 + (i - 8 - 4) = i by omega]

theorem formatXYN_of_fields (w : Word) : formatXYN (family w) (fieldX w) (fieldY w) (fieldN w) = w := by
  unfold formatXYN family fieldX fieldY fieldN
  apply BitVec.eq_of_getLsbD_eq
  intro i hi
  simp only [BitVec.getLsbD_append, BitVec.ofFin_toFin, BitVec.getLsbD_extractLsb']
  by_cases h : i < 4
  · simp [h]
  · by_cases h' : i - 4 < 4
    · simp [h, h', show 4 + (i - 4) = i by omega]
    · by_cases h'' : i - 4 - 4 < 4
      · simp [h, h', h'', show 8 + (i - 4 - 4) = i by omega]
      · simp [h, h', h'', show i - 4 - 4 - 4 < 4 by omega, show 12 + (i - 4 - 4 - 4) = i by omega]

/-- A word is its two bytes, the high one first. -/
theorem wordOfBytes_of_bytes (w : Word) : wordOfBytes (w.extractLsb' 8 8) (w.extractLsb' 0 8) = w := by
  unfold wordOfBytes
  apply BitVec.eq_of_getLsbD_eq
  intro i hi
  simp only [BitVec.getLsbD_append, BitVec.getLsbD_extractLsb']
  by_cases h : i < 8
  · simp [h]
  · simp [h, show i - 8 < 8 by omega, show 8 + (i - 8) = i by omega]

/-! ### A built word under the masks of the opcode map -/

/-- Format NNN under the family mask is its family. -/
theorem formatNNN_family (f : Nibble) (nnn : Imm12) : formatNNN f nnn &&& (0xF#4 ++ 0x000#12) = f ++ 0x000#12 := by
  unfold formatNNN
  rw [BitVec.and_append, BitVec.and_zero, show (0xF#4 : BitVec 4) = BitVec.allOnes 4 from rfl, BitVec.and_allOnes]

/-- Format XNN under the family mask is its family. -/
theorem formatXNN_family (f : Nibble) (x : Reg) (nn : Byte) :
    formatXNN f x nn &&& (0xF#4 ++ 0x0#4 ++ 0x00#8) = f ++ 0x0#4 ++ 0x00#8 := by
  unfold formatXNN
  rw [BitVec.and_append, BitVec.and_append, BitVec.and_zero, BitVec.and_zero,
    show (0xF#4 : BitVec 4) = BitVec.allOnes 4 from rfl, BitVec.and_allOnes]

/-- Format XOP under the mask of family and low byte is both. -/
theorem formatXNN_byte (f : Nibble) (x : Reg) (nn : Byte) :
    formatXNN f x nn &&& (0xF#4 ++ 0x0#4 ++ 0xFF#8) = f ++ 0x0#4 ++ nn := by
  unfold formatXNN
  rw [BitVec.and_append, BitVec.and_append, BitVec.and_zero, show (0xF#4 : BitVec 4) = BitVec.allOnes 4 from rfl,
    show (0xFF#8 : BitVec 8) = BitVec.allOnes 8 from rfl, BitVec.and_allOnes, BitVec.and_allOnes]

/-- Formats XY and XYN under the family mask are their family. -/
theorem formatXYN_family (f : Nibble) (x y : Reg) (n : Nibble) :
    formatXYN f x y n &&& (0xF#4 ++ 0x0#4 ++ 0x0#4 ++ 0x0#4) = f ++ 0x0#4 ++ 0x0#4 ++ 0x0#4 := by
  unfold formatXYN
  rw [BitVec.and_append, BitVec.and_append, BitVec.and_append, BitVec.and_zero, BitVec.and_zero, BitVec.and_zero,
    show (0xF#4 : BitVec 4) = BitVec.allOnes 4 from rfl, BitVec.and_allOnes]

/-- Format XY under the mask of family and low nibble is both. -/
theorem formatXYN_nibble (f : Nibble) (x y : Reg) (n : Nibble) :
    formatXYN f x y n &&& (0xF#4 ++ 0x0#4 ++ 0x0#4 ++ 0xF#4) = f ++ 0x0#4 ++ 0x0#4 ++ n := by
  unfold formatXYN
  rw [BitVec.and_append, BitVec.and_append, BitVec.and_append, BitVec.and_zero, BitVec.and_zero,
    show (0xF#4 : BitVec 4) = BitVec.allOnes 4 from rfl, BitVec.and_allOnes, BitVec.and_allOnes]

end Sys2Proof.Laws
end

