-- ==== Sys2Proof/Laws/Memory.lean ====
section
/-! SUPPORT. The laws of memory: a read after a write, and that every memory operation keeps the canonical form. -/

namespace Sys2Proof.Machine

/-! ### Read after write -/

theorem Memory.read_insert (m : Memory) (a : Nat) (b : Byte) (h : ∀ c ∈ m, c.1 ≠ a) (k : Nat) :
    Memory.read (Memory.insert a b m) k = if k = a then b else m.read k := by
  induction m with
  | nil => simp [Memory.insert, Memory.read]
  | cons c m ih =>
    obtain ⟨j, d⟩ := c
    have hj : j ≠ a := h (j, d) (by simp)
    have ih' := ih (fun c hc => h c (by simp [hc]))
    by_cases hlt : a < j
    · simp [Memory.insert, hlt, Memory.read]
    · by_cases hk : k = j
      · subst hk
        simp [Memory.insert, hlt, Memory.read, hj]
      · simp [Memory.insert, hlt, Memory.read, hk, ih']

theorem Memory.read_filter_ne (m : Memory) (a k : Nat) (h : k ≠ a) :
    Memory.read (m.filter (fun c => c.1 != a)) k = m.read k := by
  induction m with
  | nil => rfl
  | cons c m ih =>
    obtain ⟨j, d⟩ := c
    by_cases hj : j = a
    · subst hj
      simp [Memory.read, h, ih]
    · simp [Memory.read, hj, ih]

theorem Memory.read_filter_self (m : Memory) (a : Nat) :
    Memory.read (m.filter (fun c => c.1 != a)) a = background a := by
  induction m with
  | nil => rfl
  | cons c m ih =>
    obtain ⟨j, d⟩ := c
    by_cases hj : j = a
    · subst hj
      simp [ih]
    · simp [Memory.read, hj, Ne.symm hj, ih]

/-- A byte reads as last written, and a write leaves every other byte alone, in every memory. -/
@[simp] theorem Memory.read_write (m : Memory) (a : Nat) (b : Byte) (k : Nat) :
    (m.write a b).read k = if k = a then b else m.read k := by
  unfold Memory.write
  by_cases hb : b = background a
  · by_cases hk : k = a
    · subst hk
      simp [hb, Memory.read_filter_self]
    · simp [hb, hk, Memory.read_filter_ne m a k hk]
  · by_cases hk : k = a
    · subst hk
      simp only [hb, if_false]
      rw [Memory.read_insert _ _ _ (by simp), if_pos rfl, if_pos trivial]
    · simp only [hb, if_false]
      rw [Memory.read_insert _ _ _ (by simp), Memory.read_filter_ne m a k hk]

/-- Bytes stored from an address on read back in order, and every other byte is left alone. -/
theorem Memory.read_writeBytes (m : Memory) (a : Nat) (bs : List Byte) (k : Nat) :
    (m.writeBytes a bs).read k = if h : a ≤ k ∧ k - a < bs.length then bs[k - a]'h.2 else m.read k := by
  induction bs generalizing m a with
  | nil => simp [Memory.writeBytes]
  | cons b bs ih =>
    rw [Memory.writeBytes, ih]
    by_cases hk : k = a
    · subst hk
      simp
    · by_cases hle : a ≤ k
      · have hs : k - a = (k - (a + 1)) + 1 := by omega
        have h1 : a + 1 ≤ k := by omega
        simp [h1, hle, hs, hk]
      · simp [hle, hk, show ¬(a + 1 ≤ k) by omega]

/-- The same through the state's read of one byte. -/
theorem State.readByte_storeBytes (s : State) (a : Nat) (bs : List Byte) (k : Nat) :
    (s.storeBytes a bs).readByte k = if h : a ≤ k ∧ k - a < bs.length then bs[k - a]'h.2 else s.readByte k :=
  Memory.read_writeBytes s.mem a bs k

/-! ### The canonical form -/

theorem Memory.mem_insert (m : Memory) (a : Nat) (b : Byte) (c : Host.Cell) :
    c ∈ Memory.insert a b m ↔ c = (a, b) ∨ c ∈ m := by
  induction m with
  | nil => simp [Memory.insert]
  | cons d m ih =>
    obtain ⟨j, e⟩ := d
    by_cases hlt : a < j
    · simp [Memory.insert, hlt]
    · simp [Memory.insert, hlt, ih]
      tauto

theorem Memory.rising_insert (m : Memory) (a : Nat) (b : Byte) (h : ∀ c ∈ m, c.1 ≠ a)
    (hm : m.Pairwise (fun c d => c.1 < d.1)) : (Memory.insert a b m).Pairwise (fun c d => c.1 < d.1) := by
  induction m with
  | nil => simp [Memory.insert]
  | cons d m ih =>
    obtain ⟨j, e⟩ := d
    rw [List.pairwise_cons] at hm
    have hj : j ≠ a := h (j, e) (by simp)
    by_cases hlt : a < j
    · simp only [Memory.insert, hlt, if_true, List.pairwise_cons]
      refine ⟨fun c hc => ?_, hm⟩
      rcases List.mem_cons.mp hc with rfl | hc
      · exact hlt
      · exact lt_trans hlt (hm.1 c hc)
    · simp only [Memory.insert, hlt, if_false, List.pairwise_cons]
      refine ⟨fun c hc => ?_, ih (fun c hc => h c (by simp [hc])) hm.2⟩
      rcases (Memory.mem_insert m a b c).mp hc with rfl | hc
      · simp only
        omega
      · exact hm.1 c hc

/-- A write inside memory keeps the canonical form. -/
theorem Memory.wf_write (m : Memory) (a : Nat) (b : Byte) (hm : m.wf) (ha : a < Config.memSize) : (m.write a b).wf := by
  obtain ⟨hp, hc⟩ := hm
  have hf : (m.filter (fun c => c.1 != a)).Pairwise (fun c d => c.1 < d.1) := hp.filter _
  unfold Memory.write
  by_cases hb : b = background a
  · simp only [hb, if_true]
    exact ⟨hf, fun c h => hc c (List.mem_filter.mp h).1⟩
  · simp only [hb, if_false]
    refine ⟨Memory.rising_insert _ _ _ (by simp) hf, fun c h => ?_⟩
    rcases (Memory.mem_insert _ a b c).mp h with rfl | h
    · exact ⟨ha, hb⟩
    · exact hc c (List.mem_filter.mp h).1

/-- Storing bytes inside memory keeps the canonical form. -/
theorem Memory.wf_writeBytes (m : Memory) (a : Nat) (bs : List Byte) (hm : m.wf) (ha : a + bs.length ≤ Config.memSize) :
    (m.writeBytes a bs).wf := by
  induction bs generalizing m a with
  | nil => exact hm
  | cons b bs ih =>
    rw [List.length_cons] at ha
    exact ih _ _ (Memory.wf_write m a b hm (by omega)) (by omega)

/-- The memory at reset is in canonical form. -/
theorem State.reset_mem_wf : State.reset.mem.wf := ⟨List.Pairwise.nil, fun _ h => nomatch h⟩

/-! ### The reset contents -/

/-- From the program origin on, memory is 0 at reset. -/
theorem background_high (a : Nat) (h : Config.programOrigin ≤ a) : background a = 0#8 := by
  simp [background, Nat.not_lt.mpr h]

/-- The font stands at FONT_BASE at reset. -/
theorem background_font (k : Nat) (h : k < Config.fontSize) : background (fontBase + k) = fontByte k := by
  have hb : fontBase < 0x200 - 80 + 1 := Config.fontBase.isLt
  have hk : k < 80 := h
  have hlt : fontBase + k < Config.programOrigin := by
    show fontBase + k < 512
    omega
  simp [background, hlt, h]

end Sys2Proof.Machine
end

