-- ==== Sys2Proof/Laws/State.lean ====
section
/-! SUPPORT. One lemma per field per update of the state, each true by rfl, so that no later proof unfolds a record
update; and what a register reads after a register write. -/

namespace Sys2Proof.Machine

variable (s : State)

/-! ### setV -/

@[simp] theorem State.setV_v (r : Reg) (b : Byte) : (s.setV r b).v = s.v.set r b := rfl
@[simp] theorem State.setV_i (r : Reg) (b : Byte) : (s.setV r b).i = s.i := rfl
@[simp] theorem State.setV_pc (r : Reg) (b : Byte) : (s.setV r b).pc = s.pc := rfl
@[simp] theorem State.setV_mem (r : Reg) (b : Byte) : (s.setV r b).mem = s.mem := rfl
@[simp] theorem State.setV_stk (r : Reg) (b : Byte) : (s.setV r b).stk = s.stk := rfl
@[simp] theorem State.setV_sp (r : Reg) (b : Byte) : (s.setV r b).sp = s.sp := rfl
@[simp] theorem State.setV_dt (r : Reg) (b : Byte) : (s.setV r b).dt = s.dt := rfl
@[simp] theorem State.setV_st (r : Reg) (b : Byte) : (s.setV r b).st = s.st := rfl
@[simp] theorem State.setV_fb (r : Reg) (b : Byte) : (s.setV r b).fb = s.fb := rfl
@[simp] theorem State.setV_keys (r : Reg) (b : Byte) : (s.setV r b).keys = s.keys := rfl
@[simp] theorem State.setV_redraw (r : Reg) (b : Byte) : (s.setV r b).redraw = s.redraw := rfl
@[simp] theorem State.setV_runState (r : Reg) (b : Byte) : (s.setV r b).runState = s.runState := rfl
@[simp] theorem State.setV_fault (r : Reg) (b : Byte) : (s.setV r b).fault = s.fault := rfl
@[simp] theorem State.setV_draws (r : Reg) (b : Byte) : (s.setV r b).draws = s.draws := rfl

/-! ### setI -/

@[simp] theorem State.setI_v (a : Word) : (s.setI a).v = s.v := rfl
@[simp] theorem State.setI_i (a : Word) : (s.setI a).i = a := rfl
@[simp] theorem State.setI_pc (a : Word) : (s.setI a).pc = s.pc := rfl
@[simp] theorem State.setI_mem (a : Word) : (s.setI a).mem = s.mem := rfl
@[simp] theorem State.setI_stk (a : Word) : (s.setI a).stk = s.stk := rfl
@[simp] theorem State.setI_sp (a : Word) : (s.setI a).sp = s.sp := rfl
@[simp] theorem State.setI_dt (a : Word) : (s.setI a).dt = s.dt := rfl
@[simp] theorem State.setI_st (a : Word) : (s.setI a).st = s.st := rfl
@[simp] theorem State.setI_fb (a : Word) : (s.setI a).fb = s.fb := rfl
@[simp] theorem State.setI_keys (a : Word) : (s.setI a).keys = s.keys := rfl
@[simp] theorem State.setI_redraw (a : Word) : (s.setI a).redraw = s.redraw := rfl
@[simp] theorem State.setI_runState (a : Word) : (s.setI a).runState = s.runState := rfl
@[simp] theorem State.setI_fault (a : Word) : (s.setI a).fault = s.fault := rfl
@[simp] theorem State.setI_draws (a : Word) : (s.setI a).draws = s.draws := rfl

/-! ### setPc -/

@[simp] theorem State.setPc_v (a : Word) : (s.setPc a).v = s.v := rfl
@[simp] theorem State.setPc_i (a : Word) : (s.setPc a).i = s.i := rfl
@[simp] theorem State.setPc_pc (a : Word) : (s.setPc a).pc = a := rfl
@[simp] theorem State.setPc_mem (a : Word) : (s.setPc a).mem = s.mem := rfl
@[simp] theorem State.setPc_stk (a : Word) : (s.setPc a).stk = s.stk := rfl
@[simp] theorem State.setPc_sp (a : Word) : (s.setPc a).sp = s.sp := rfl
@[simp] theorem State.setPc_dt (a : Word) : (s.setPc a).dt = s.dt := rfl
@[simp] theorem State.setPc_st (a : Word) : (s.setPc a).st = s.st := rfl
@[simp] theorem State.setPc_fb (a : Word) : (s.setPc a).fb = s.fb := rfl
@[simp] theorem State.setPc_keys (a : Word) : (s.setPc a).keys = s.keys := rfl
@[simp] theorem State.setPc_redraw (a : Word) : (s.setPc a).redraw = s.redraw := rfl
@[simp] theorem State.setPc_runState (a : Word) : (s.setPc a).runState = s.runState := rfl
@[simp] theorem State.setPc_fault (a : Word) : (s.setPc a).fault = s.fault := rfl
@[simp] theorem State.setPc_draws (a : Word) : (s.setPc a).draws = s.draws := rfl

/-! ### advance -/

@[simp] theorem State.advance_v : s.advance.v = s.v := rfl
@[simp] theorem State.advance_i : s.advance.i = s.i := rfl
@[simp] theorem State.advance_pc : s.advance.pc = s.pc + 2#16 := rfl
@[simp] theorem State.advance_mem : s.advance.mem = s.mem := rfl
@[simp] theorem State.advance_stk : s.advance.stk = s.stk := rfl
@[simp] theorem State.advance_sp : s.advance.sp = s.sp := rfl
@[simp] theorem State.advance_dt : s.advance.dt = s.dt := rfl
@[simp] theorem State.advance_st : s.advance.st = s.st := rfl
@[simp] theorem State.advance_fb : s.advance.fb = s.fb := rfl
@[simp] theorem State.advance_keys : s.advance.keys = s.keys := rfl
@[simp] theorem State.advance_redraw : s.advance.redraw = s.redraw := rfl
@[simp] theorem State.advance_runState : s.advance.runState = s.runState := rfl
@[simp] theorem State.advance_fault : s.advance.fault = s.fault := rfl
@[simp] theorem State.advance_draws : s.advance.draws = s.draws := rfl

/-! ### skipIf -/

@[simp] theorem State.skipIf_v (c : Bool) : (s.skipIf c).v = s.v := rfl
@[simp] theorem State.skipIf_i (c : Bool) : (s.skipIf c).i = s.i := rfl
@[simp] theorem State.skipIf_pc (c : Bool) : (s.skipIf c).pc = if c then s.pc + 4#16 else s.pc + 2#16 := rfl
@[simp] theorem State.skipIf_mem (c : Bool) : (s.skipIf c).mem = s.mem := rfl
@[simp] theorem State.skipIf_stk (c : Bool) : (s.skipIf c).stk = s.stk := rfl
@[simp] theorem State.skipIf_sp (c : Bool) : (s.skipIf c).sp = s.sp := rfl
@[simp] theorem State.skipIf_dt (c : Bool) : (s.skipIf c).dt = s.dt := rfl
@[simp] theorem State.skipIf_st (c : Bool) : (s.skipIf c).st = s.st := rfl
@[simp] theorem State.skipIf_fb (c : Bool) : (s.skipIf c).fb = s.fb := rfl
@[simp] theorem State.skipIf_keys (c : Bool) : (s.skipIf c).keys = s.keys := rfl
@[simp] theorem State.skipIf_redraw (c : Bool) : (s.skipIf c).redraw = s.redraw := rfl
@[simp] theorem State.skipIf_runState (c : Bool) : (s.skipIf c).runState = s.runState := rfl
@[simp] theorem State.skipIf_fault (c : Bool) : (s.skipIf c).fault = s.fault := rfl
@[simp] theorem State.skipIf_draws (c : Bool) : (s.skipIf c).draws = s.draws := rfl

/-! ### storeBytes -/

@[simp] theorem State.storeBytes_v (a : Nat) (bs : List Byte) : (s.storeBytes a bs).v = s.v := rfl
@[simp] theorem State.storeBytes_i (a : Nat) (bs : List Byte) : (s.storeBytes a bs).i = s.i := rfl
@[simp] theorem State.storeBytes_pc (a : Nat) (bs : List Byte) : (s.storeBytes a bs).pc = s.pc := rfl
@[simp] theorem State.storeBytes_mem (a : Nat) (bs : List Byte) : (s.storeBytes a bs).mem = s.mem.writeBytes a bs := rfl
@[simp] theorem State.storeBytes_stk (a : Nat) (bs : List Byte) : (s.storeBytes a bs).stk = s.stk := rfl
@[simp] theorem State.storeBytes_sp (a : Nat) (bs : List Byte) : (s.storeBytes a bs).sp = s.sp := rfl
@[simp] theorem State.storeBytes_dt (a : Nat) (bs : List Byte) : (s.storeBytes a bs).dt = s.dt := rfl
@[simp] theorem State.storeBytes_st (a : Nat) (bs : List Byte) : (s.storeBytes a bs).st = s.st := rfl
@[simp] theorem State.storeBytes_fb (a : Nat) (bs : List Byte) : (s.storeBytes a bs).fb = s.fb := rfl
@[simp] theorem State.storeBytes_keys (a : Nat) (bs : List Byte) : (s.storeBytes a bs).keys = s.keys := rfl
@[simp] theorem State.storeBytes_redraw (a : Nat) (bs : List Byte) : (s.storeBytes a bs).redraw = s.redraw := rfl
@[simp] theorem State.storeBytes_runState (a : Nat) (bs : List Byte) : (s.storeBytes a bs).runState = s.runState := rfl
@[simp] theorem State.storeBytes_fault (a : Nat) (bs : List Byte) : (s.storeBytes a bs).fault = s.fault := rfl
@[simp] theorem State.storeBytes_draws (a : Nat) (bs : List Byte) : (s.storeBytes a bs).draws = s.draws := rfl

/-! ### push -/

@[simp] theorem State.push_v (w : Word) (h : s.sp.val < 16) : (s.push w h).v = s.v := rfl
@[simp] theorem State.push_i (w : Word) (h : s.sp.val < 16) : (s.push w h).i = s.i := rfl
@[simp] theorem State.push_pc (w : Word) (h : s.sp.val < 16) : (s.push w h).pc = s.pc := rfl
@[simp] theorem State.push_mem (w : Word) (h : s.sp.val < 16) : (s.push w h).mem = s.mem := rfl
@[simp] theorem State.push_stk (w : Word) (h : s.sp.val < 16) : (s.push w h).stk = s.stk.set s.sp.val w := rfl
@[simp] theorem State.push_sp (w : Word) (h : s.sp.val < 16) : (s.push w h).sp = ⟨s.sp.val + 1, by omega⟩ := rfl
@[simp] theorem State.push_dt (w : Word) (h : s.sp.val < 16) : (s.push w h).dt = s.dt := rfl
@[simp] theorem State.push_st (w : Word) (h : s.sp.val < 16) : (s.push w h).st = s.st := rfl
@[simp] theorem State.push_fb (w : Word) (h : s.sp.val < 16) : (s.push w h).fb = s.fb := rfl
@[simp] theorem State.push_keys (w : Word) (h : s.sp.val < 16) : (s.push w h).keys = s.keys := rfl
@[simp] theorem State.push_redraw (w : Word) (h : s.sp.val < 16) : (s.push w h).redraw = s.redraw := rfl
@[simp] theorem State.push_runState (w : Word) (h : s.sp.val < 16) : (s.push w h).runState = s.runState := rfl
@[simp] theorem State.push_fault (w : Word) (h : s.sp.val < 16) : (s.push w h).fault = s.fault := rfl
@[simp] theorem State.push_draws (w : Word) (h : s.sp.val < 16) : (s.push w h).draws = s.draws := rfl

/-! ### drop -/

@[simp] theorem State.drop_v : s.drop.v = s.v := rfl
@[simp] theorem State.drop_i : s.drop.i = s.i := rfl
@[simp] theorem State.drop_pc : s.drop.pc = s.pc := rfl
@[simp] theorem State.drop_mem : s.drop.mem = s.mem := rfl
@[simp] theorem State.drop_stk : s.drop.stk = s.stk := rfl
@[simp] theorem State.drop_sp : s.drop.sp = ⟨s.sp.val - 1, by omega⟩ := rfl
@[simp] theorem State.drop_dt : s.drop.dt = s.dt := rfl
@[simp] theorem State.drop_st : s.drop.st = s.st := rfl
@[simp] theorem State.drop_fb : s.drop.fb = s.fb := rfl
@[simp] theorem State.drop_keys : s.drop.keys = s.keys := rfl
@[simp] theorem State.drop_redraw : s.drop.redraw = s.redraw := rfl
@[simp] theorem State.drop_runState : s.drop.runState = s.runState := rfl
@[simp] theorem State.drop_fault : s.drop.fault = s.fault := rfl
@[simp] theorem State.drop_draws : s.drop.draws = s.draws := rfl

/-! ### setDT -/

@[simp] theorem State.setDT_v (b : Byte) : (s.setDT b).v = s.v := rfl
@[simp] theorem State.setDT_i (b : Byte) : (s.setDT b).i = s.i := rfl
@[simp] theorem State.setDT_pc (b : Byte) : (s.setDT b).pc = s.pc := rfl
@[simp] theorem State.setDT_mem (b : Byte) : (s.setDT b).mem = s.mem := rfl
@[simp] theorem State.setDT_stk (b : Byte) : (s.setDT b).stk = s.stk := rfl
@[simp] theorem State.setDT_sp (b : Byte) : (s.setDT b).sp = s.sp := rfl
@[simp] theorem State.setDT_dt (b : Byte) : (s.setDT b).dt = b := rfl
@[simp] theorem State.setDT_st (b : Byte) : (s.setDT b).st = s.st := rfl
@[simp] theorem State.setDT_fb (b : Byte) : (s.setDT b).fb = s.fb := rfl
@[simp] theorem State.setDT_keys (b : Byte) : (s.setDT b).keys = s.keys := rfl
@[simp] theorem State.setDT_redraw (b : Byte) : (s.setDT b).redraw = s.redraw := rfl
@[simp] theorem State.setDT_runState (b : Byte) : (s.setDT b).runState = s.runState := rfl
@[simp] theorem State.setDT_fault (b : Byte) : (s.setDT b).fault = s.fault := rfl
@[simp] theorem State.setDT_draws (b : Byte) : (s.setDT b).draws = s.draws := rfl

/-! ### setST -/

@[simp] theorem State.setST_v (b : Byte) : (s.setST b).v = s.v := rfl
@[simp] theorem State.setST_i (b : Byte) : (s.setST b).i = s.i := rfl
@[simp] theorem State.setST_pc (b : Byte) : (s.setST b).pc = s.pc := rfl
@[simp] theorem State.setST_mem (b : Byte) : (s.setST b).mem = s.mem := rfl
@[simp] theorem State.setST_stk (b : Byte) : (s.setST b).stk = s.stk := rfl
@[simp] theorem State.setST_sp (b : Byte) : (s.setST b).sp = s.sp := rfl
@[simp] theorem State.setST_dt (b : Byte) : (s.setST b).dt = s.dt := rfl
@[simp] theorem State.setST_st (b : Byte) : (s.setST b).st = b := rfl
@[simp] theorem State.setST_fb (b : Byte) : (s.setST b).fb = s.fb := rfl
@[simp] theorem State.setST_keys (b : Byte) : (s.setST b).keys = s.keys := rfl
@[simp] theorem State.setST_redraw (b : Byte) : (s.setST b).redraw = s.redraw := rfl
@[simp] theorem State.setST_runState (b : Byte) : (s.setST b).runState = s.runState := rfl
@[simp] theorem State.setST_fault (b : Byte) : (s.setST b).fault = s.fault := rfl
@[simp] theorem State.setST_draws (b : Byte) : (s.setST b).draws = s.draws := rfl

/-! ### present -/

@[simp] theorem State.present_v (f : Frame) : (s.present f).v = s.v := rfl
@[simp] theorem State.present_i (f : Frame) : (s.present f).i = s.i := rfl
@[simp] theorem State.present_pc (f : Frame) : (s.present f).pc = s.pc := rfl
@[simp] theorem State.present_mem (f : Frame) : (s.present f).mem = s.mem := rfl
@[simp] theorem State.present_stk (f : Frame) : (s.present f).stk = s.stk := rfl
@[simp] theorem State.present_sp (f : Frame) : (s.present f).sp = s.sp := rfl
@[simp] theorem State.present_dt (f : Frame) : (s.present f).dt = s.dt := rfl
@[simp] theorem State.present_st (f : Frame) : (s.present f).st = s.st := rfl
@[simp] theorem State.present_fb (f : Frame) : (s.present f).fb = f := rfl
@[simp] theorem State.present_keys (f : Frame) : (s.present f).keys = s.keys := rfl
@[simp] theorem State.present_redraw (f : Frame) : (s.present f).redraw = true := rfl
@[simp] theorem State.present_runState (f : Frame) : (s.present f).runState = s.runState := rfl
@[simp] theorem State.present_fault (f : Frame) : (s.present f).fault = s.fault := rfl
@[simp] theorem State.present_draws (f : Frame) : (s.present f).draws = s.draws := rfl

/-! ### setFlag -/

@[simp] theorem State.setFlag_v (c : Bool) : (s.setFlag c).v = s.v.set VF (flag c) := rfl
@[simp] theorem State.setFlag_i (c : Bool) : (s.setFlag c).i = s.i := rfl
@[simp] theorem State.setFlag_pc (c : Bool) : (s.setFlag c).pc = s.pc := rfl
@[simp] theorem State.setFlag_mem (c : Bool) : (s.setFlag c).mem = s.mem := rfl
@[simp] theorem State.setFlag_stk (c : Bool) : (s.setFlag c).stk = s.stk := rfl
@[simp] theorem State.setFlag_sp (c : Bool) : (s.setFlag c).sp = s.sp := rfl
@[simp] theorem State.setFlag_dt (c : Bool) : (s.setFlag c).dt = s.dt := rfl
@[simp] theorem State.setFlag_st (c : Bool) : (s.setFlag c).st = s.st := rfl
@[simp] theorem State.setFlag_fb (c : Bool) : (s.setFlag c).fb = s.fb := rfl
@[simp] theorem State.setFlag_keys (c : Bool) : (s.setFlag c).keys = s.keys := rfl
@[simp] theorem State.setFlag_redraw (c : Bool) : (s.setFlag c).redraw = s.redraw := rfl
@[simp] theorem State.setFlag_runState (c : Bool) : (s.setFlag c).runState = s.runState := rfl
@[simp] theorem State.setFlag_fault (c : Bool) : (s.setFlag c).fault = s.fault := rfl
@[simp] theorem State.setFlag_draws (c : Bool) : (s.setFlag c).draws = s.draws := rfl

/-! ### drawn -/

@[simp] theorem State.drawn_v : s.drawn.v = s.v := rfl
@[simp] theorem State.drawn_i : s.drawn.i = s.i := rfl
@[simp] theorem State.drawn_pc : s.drawn.pc = s.pc := rfl
@[simp] theorem State.drawn_mem : s.drawn.mem = s.mem := rfl
@[simp] theorem State.drawn_stk : s.drawn.stk = s.stk := rfl
@[simp] theorem State.drawn_sp : s.drawn.sp = s.sp := rfl
@[simp] theorem State.drawn_dt : s.drawn.dt = s.dt := rfl
@[simp] theorem State.drawn_st : s.drawn.st = s.st := rfl
@[simp] theorem State.drawn_fb : s.drawn.fb = s.fb := rfl
@[simp] theorem State.drawn_keys : s.drawn.keys = s.keys := rfl
@[simp] theorem State.drawn_redraw : s.drawn.redraw = s.redraw := rfl
@[simp] theorem State.drawn_runState : s.drawn.runState = s.runState := rfl
@[simp] theorem State.drawn_fault : s.drawn.fault = s.fault := rfl
@[simp] theorem State.drawn_draws : s.drawn.draws = s.draws + 1 := rfl

/-! ### latch -/

@[simp] theorem State.latch_v (c : FaultCause) : (s.latch c).v = s.v := rfl
@[simp] theorem State.latch_i (c : FaultCause) : (s.latch c).i = s.i := rfl
@[simp] theorem State.latch_pc (c : FaultCause) : (s.latch c).pc = s.pc := rfl
@[simp] theorem State.latch_mem (c : FaultCause) : (s.latch c).mem = s.mem := rfl
@[simp] theorem State.latch_stk (c : FaultCause) : (s.latch c).stk = s.stk := rfl
@[simp] theorem State.latch_sp (c : FaultCause) : (s.latch c).sp = s.sp := rfl
@[simp] theorem State.latch_dt (c : FaultCause) : (s.latch c).dt = s.dt := rfl
@[simp] theorem State.latch_st (c : FaultCause) : (s.latch c).st = s.st := rfl
@[simp] theorem State.latch_fb (c : FaultCause) : (s.latch c).fb = s.fb := rfl
@[simp] theorem State.latch_keys (c : FaultCause) : (s.latch c).keys = s.keys := rfl
@[simp] theorem State.latch_redraw (c : FaultCause) : (s.latch c).redraw = s.redraw := rfl
@[simp] theorem State.latch_runState (c : FaultCause) : (s.latch c).runState = s.runState := rfl
@[simp] theorem State.latch_fault (c : FaultCause) : (s.latch c).fault = some c := rfl
@[simp] theorem State.latch_draws (c : FaultCause) : (s.latch c).draws = s.draws := rfl

/-! ### Registers -/

/-- What a register holds after a write: the value if it is the register written, else what it held. -/
@[simp] theorem State.getV_setV (r q : Reg) (b : Byte) : (s.setV r b).getV q = if q = r then b else s.getV q := by
  unfold State.getV
  rw [State.setV_v]
  simp only [Fin.getElem_fin, Vector.getElem_set, Fin.ext_iff, eq_comm]

/-- What a register holds after the flag is written. -/
@[simp] theorem State.getV_setFlag (q : Reg) (c : Bool) : (s.setFlag c).getV q = if q = VF then flag c else s.getV q :=
  State.getV_setV s VF q (flag c)

@[simp] theorem State.getV_setI (q : Reg) (a : Word) : (s.setI a).getV q = s.getV q := rfl
@[simp] theorem State.getV_setPc (q : Reg) (a : Word) : (s.setPc a).getV q = s.getV q := rfl
@[simp] theorem State.getV_advance (q : Reg) : s.advance.getV q = s.getV q := rfl
@[simp] theorem State.getV_skipIf (q : Reg) (c : Bool) : (s.skipIf c).getV q = s.getV q := rfl
@[simp] theorem State.getV_storeBytes (q : Reg) (a : Nat) (bs : List Byte) : (s.storeBytes a bs).getV q = s.getV q := rfl
@[simp] theorem State.getV_push (q : Reg) (w : Word) (h : s.sp.val < 16) : (s.push w h).getV q = s.getV q := rfl
@[simp] theorem State.getV_drop (q : Reg) : s.drop.getV q = s.getV q := rfl
@[simp] theorem State.getV_setDT (q : Reg) (b : Byte) : (s.setDT b).getV q = s.getV q := rfl
@[simp] theorem State.getV_setST (q : Reg) (b : Byte) : (s.setST b).getV q = s.getV q := rfl
@[simp] theorem State.getV_present (q : Reg) (f : Frame) : (s.present f).getV q = s.getV q := rfl
@[simp] theorem State.getV_drawn (q : Reg) : s.drawn.getV q = s.getV q := rfl
@[simp] theorem State.getV_latch (q : Reg) (c : FaultCause) : (s.latch c).getV q = s.getV q := rfl

/-! ### Bytes and pixels -/

@[simp] theorem State.readByte_setV (k : Nat) (r : Reg) (b : Byte) : (s.setV r b).readByte k = s.readByte k := rfl
@[simp] theorem State.pixel_setV (y : Fin 32) (x : Fin 64) (r : Reg) (b : Byte) : (s.setV r b).pixel y x = s.pixel y x := rfl
@[simp] theorem State.readByte_setI (k : Nat) (a : Word) : (s.setI a).readByte k = s.readByte k := rfl
@[simp] theorem State.pixel_setI (y : Fin 32) (x : Fin 64) (a : Word) : (s.setI a).pixel y x = s.pixel y x := rfl
@[simp] theorem State.readByte_setPc (k : Nat) (a : Word) : (s.setPc a).readByte k = s.readByte k := rfl
@[simp] theorem State.pixel_setPc (y : Fin 32) (x : Fin 64) (a : Word) : (s.setPc a).pixel y x = s.pixel y x := rfl
@[simp] theorem State.readByte_advance (k : Nat) : s.advance.readByte k = s.readByte k := rfl
@[simp] theorem State.pixel_advance (y : Fin 32) (x : Fin 64) : s.advance.pixel y x = s.pixel y x := rfl
@[simp] theorem State.readByte_skipIf (k : Nat) (c : Bool) : (s.skipIf c).readByte k = s.readByte k := rfl
@[simp] theorem State.pixel_skipIf (y : Fin 32) (x : Fin 64) (c : Bool) : (s.skipIf c).pixel y x = s.pixel y x := rfl
@[simp] theorem State.pixel_storeBytes (y : Fin 32) (x : Fin 64) (a : Nat) (bs : List Byte) : (s.storeBytes a bs).pixel y x = s.pixel y x := rfl
@[simp] theorem State.readByte_push (k : Nat) (w : Word) (h : s.sp.val < 16) : (s.push w h).readByte k = s.readByte k := rfl
@[simp] theorem State.pixel_push (y : Fin 32) (x : Fin 64) (w : Word) (h : s.sp.val < 16) : (s.push w h).pixel y x = s.pixel y x := rfl
@[simp] theorem State.readByte_drop (k : Nat) : s.drop.readByte k = s.readByte k := rfl
@[simp] theorem State.pixel_drop (y : Fin 32) (x : Fin 64) : s.drop.pixel y x = s.pixel y x := rfl
@[simp] theorem State.readByte_setDT (k : Nat) (b : Byte) : (s.setDT b).readByte k = s.readByte k := rfl
@[simp] theorem State.pixel_setDT (y : Fin 32) (x : Fin 64) (b : Byte) : (s.setDT b).pixel y x = s.pixel y x := rfl
@[simp] theorem State.readByte_setST (k : Nat) (b : Byte) : (s.setST b).readByte k = s.readByte k := rfl
@[simp] theorem State.pixel_setST (y : Fin 32) (x : Fin 64) (b : Byte) : (s.setST b).pixel y x = s.pixel y x := rfl
@[simp] theorem State.readByte_present (k : Nat) (f : Frame) : (s.present f).readByte k = s.readByte k := rfl
@[simp] theorem State.readByte_setFlag (k : Nat) (c : Bool) : (s.setFlag c).readByte k = s.readByte k := rfl
@[simp] theorem State.pixel_setFlag (y : Fin 32) (x : Fin 64) (c : Bool) : (s.setFlag c).pixel y x = s.pixel y x := rfl
@[simp] theorem State.readByte_drawn (k : Nat) : s.drawn.readByte k = s.readByte k := rfl
@[simp] theorem State.pixel_drawn (y : Fin 32) (x : Fin 64) : s.drawn.pixel y x = s.pixel y x := rfl
@[simp] theorem State.readByte_latch (k : Nat) (c : FaultCause) : (s.latch c).readByte k = s.readByte k := rfl
@[simp] theorem State.pixel_latch (y : Fin 32) (x : Fin 64) (c : FaultCause) : (s.latch c).pixel y x = s.pixel y x := rfl

end Sys2Proof.Machine
end

