-- ==== Sys2Proof/Laws/Ops.lean ====
section
/-! SUPPORT. One lemma for each shared operation, saying once everything it can do. -/

namespace Sys2Proof.Machine

/-! ### Faults -/

/-- Taking a fault always answers the state with the latch set, and nothing else (R10). -/
theorem raise_eq (c : FaultCause) (s : State) : raise c s = .next { s with fault := some c } := rfl

/-- A checked access goes on inside memory. -/
theorem withData_inside (n : Nat) (s : State) (k : Result) (h : n = 0 ∨ s.i.toNat + (n - 1) ≤ 0xFFF) :
    withData n s k = k := by
  unfold withData
  rw [if_neg (by omega)]

/-- A checked access latches DataAddressFault outside memory. -/
theorem withData_outside (n : Nat) (s : State) (k : Result) (h0 : 0 < n) (h : 0xFFF < s.i.toNat + (n - 1)) :
    withData n s k = .next { s with fault := some .dataAddressFault } := by
  unfold withData
  rw [if_pos ⟨h0, h⟩, raise_eq]

/-! ### Operands -/

/-- NNN keeps its value. -/
@[simp] theorem imm16_toNat (nnn : Imm12) : (imm16 nnn).toNat = nnn.toNat := by
  unfold imm16
  rw [BitVec.toNat_setWidth]
  exact Nat.mod_eq_of_lt (by omega)

/-- A register keeps its value when extended. -/
@[simp] theorem State.getV16_toNat (s : State) (r : Reg) : (s.getV16 r).toNat = (s.getV r).toNat := by
  unfold State.getV16
  rw [BitVec.toNat_setWidth]
  exact Nat.mod_eq_of_lt (by omega)

/-- A register at most 15 is a digit. -/
theorem State.digit?_of_le (s : State) (r : Reg) (h : (s.getV r).toNat ≤ 15) :
    s.digit? r = some ⟨(s.getV r).toNat, by omega⟩ := by
  unfold State.digit?
  rw [dif_pos (by omega)]

/-- A register above 15 is none. -/
theorem State.digit?_of_gt (s : State) (r : Reg) (h : 15 < (s.getV r).toNat) : s.digit? r = none := by
  unfold State.digit?
  rw [dif_neg (by omega)]

/-- The glyph of a digit, as a number. -/
theorem glyphAddr_toNat (d : Fin 16) : (glyphAddr d).toNat = fontBase + 5 * d.val := by
  have hb : fontBase < 0x200 - 80 + 1 := Config.fontBase.isLt
  have hd := d.isLt
  unfold glyphAddr Config.glyphHeight
  rw [BitVec.toNat_ofNat]
  exact Nat.mod_eq_of_lt (by omega)

/-! ### Blocks of registers -/

@[simp] theorem State.block_length (s : State) (x : Reg) : (s.block x).length = x.val + 1 := by simp [State.block]

/-- The k-th byte of the block is V[k]. -/
theorem State.block_getElem (s : State) (x : Reg) (k : Nat) (h : k < (s.block x).length) :
    (s.block x)[k] = s.getV (Fin.ofNat 16 k) := by simp [State.block]

/-- Writing the first n registers from a table leaves them as the table says, the others alone, and nothing else
changed. -/
theorem State.setV_range (s : State) (f : Nat → Byte) (n : Nat) (hn : n ≤ 16) :
    ∃ v, (List.range n).foldl (fun t k => t.setV (Fin.ofNat 16 k) (f k)) s = { s with v := v } ∧
      ∀ r : Reg, v[r] = if r.val < n then f r.val else s.getV r := by
  induction n with
  | zero => exact ⟨s.v, rfl, fun r => by simp [State.getV]⟩
  | succ n ih =>
    obtain ⟨v, hv, hr⟩ := ih (by omega)
    refine ⟨v.set (Fin.ofNat 16 n) (f n), ?_, fun r => ?_⟩
    · rw [List.range_succ, List.foldl_append, hv]
      rfl
    · have hn' : (Fin.ofNat 16 n).val = n := Nat.mod_eq_of_lt (by omega)
      simp only [Fin.getElem_fin, Vector.getElem_set, hn']
      by_cases h : n = r.val
      · subst h
        simp
      · have hr' := hr r
        simp only [Fin.getElem_fin] at hr'
        rw [if_neg h, hr']
        by_cases hlt : r.val < n
        · rw [if_pos hlt, if_pos (by omega)]
        · rw [if_neg hlt, if_neg (by omega)]

/-- FX65's loop: V0 to VX hold the bytes from I on, and nothing else has changed (R165). -/
theorem State.loadBlock_spec (s : State) (x : Reg) :
    ∃ v, s.loadBlock x = { s with v := v } ∧
      ∀ r : Reg, v[r] = if r ≤ x then s.readByte (s.i.toNat + r.val) else s.getV r := by
  obtain ⟨v, hv, hr⟩ := State.setV_range s (fun k => s.readByte (s.dataAddr k)) (x.val + 1) (by omega)
  refine ⟨v, hv, fun r => ?_⟩
  rw [hr r]
  by_cases h : r ≤ x
  · rw [if_pos h, if_pos (by have : r.val ≤ x.val := h; omega)]
    rfl
  · rw [if_neg h, if_neg (by have : ¬r.val ≤ x.val := h; omega)]

/-! ### The key scan -/

/-- Scanning keys 0 to n - 1 gives the highest that is down, or none if none is. -/
theorem State.scanKeys_upto (s : State) (n : Nat) (hn : n ≤ 16) :
    let found := (List.range n).foldl (fun found k => if s.keyDown k then some (Fin.ofNat 16 k) else found) none
    (found = none → ∀ k, k < n → s.keyDown k = false) ∧
    (∀ k, found = some k → k.val < n ∧ s.keyDown k = true ∧ ∀ j, k.val < j → j < n → s.keyDown j = false) := by
  induction n with
  | zero => simp
  | succ n ih =>
    have ih := ih (by omega)
    simp only [List.range_succ, List.foldl_append, List.foldl_cons, List.foldl_nil] at ih ⊢
    have hn' : (Fin.ofNat 16 n).val = n := Nat.mod_eq_of_lt (by omega)
    by_cases h : s.keyDown n = true
    · simp only [h, if_true]
      refine ⟨fun hc => (nomatch hc), fun k hk => ?_⟩
      rw [Option.some.injEq] at hk
      subst hk
      exact ⟨by omega, by rw [hn']; exact h, fun j hj hlt => by omega⟩
    · simp only [h]
      refine ⟨fun hc k hk => ?_, fun k hk => ?_⟩
      · rcases Nat.lt_succ_iff_lt_or_eq.mp hk with hk | rfl
        · exact ih.1 hc k hk
        · simpa using h
      · obtain ⟨h1, h2, h3⟩ := ih.2 k hk
        refine ⟨by omega, h2, fun j hj hlt => ?_⟩
        rcases Nat.lt_succ_iff_lt_or_eq.mp hlt with hlt | rfl
        · exact h3 j hj hlt
        · simpa using h

/-- FX0A's scan finds no key only if none is down. -/
theorem State.scanKeys_none (s : State) (h : s.scanKeys = none) (k : Nat) (hk : k < 16) : s.keyDown k = false :=
  (State.scanKeys_upto s 16 (by omega)).1 h k hk

/-- FX0A's scan finds the highest key that is down. -/
theorem State.scanKeys_some (s : State) (k : Fin 16) (h : s.scanKeys = some k) :
    s.keyDown k = true ∧ ∀ j, k.val < j → j < 16 → s.keyDown j = false :=
  ((State.scanKeys_upto s 16 (by omega)).2 k h).2

/-! ### Pixels -/

/-- Turning one pixel over changes it and no other. -/
theorem Frame.pixel_toggle (f : Frame) (y : Fin 32) (x : Fin 64) (v : Fin 32) (u : Fin 64) :
    (f.toggle y x).pixel v u = if v = y ∧ u = x then !(f.pixel y x) else f.pixel v u := by
  unfold Frame.toggle Frame.pixel
  simp only [Fin.getElem_fin, Vector.getElem_set, Fin.ext_iff]
  by_cases hv : y.val = v.val
  · by_cases hu : x.val = u.val
    · simp [hv, hu]
    · simp [hv, hu, Ne.symm hu]
  · simp [hv, Ne.symm hv]

@[simp] theorem Frame.pixel_clear (y : Fin 32) (x : Fin 64) : Frame.clear.pixel y x = false := by
  simp [Frame.clear, Frame.pixel]

/-! ### The step -/

/-- `step` acts exactly in Playing with no fault latched. -/
theorem State.admitted_iff (s : State) : s.admitted = true ↔ s.runState = .playing ∧ s.fault = none := by
  simp [State.admitted]

/-- A fetch is possible exactly up to pc 0x0FFE. -/
theorem State.canFetch_iff (s : State) : s.canFetch = true ↔ s.pc.toNat ≤ 0x0FFE := by simp [State.canFetch]

/-- The three cases of a step. -/
theorem step_cases (s : State) :
    (s.admitted = false ∧ step s = .next s) ∨
    (s.admitted = true ∧ s.canFetch = false ∧ step s = .next { s with fault := some .fetchFault }) ∨
    (s.admitted = true ∧ s.canFetch = true ∧ step s = exec (decode s.fetch) s) := by
  unfold step
  cases h : s.admitted <;> cases hc : s.canFetch <;> simp [raise_eq]

/-- A run of one step more is that step and then the run. -/
theorem run_succ (M : Host.Core) (n : Nat) (s : M.State) :
    M.run (n + 1) s = (match M.step s with | .next t => M.run n t | .fault r => .fault r | .refused r => .refused r) := rfl

end Sys2Proof.Machine
end

