-- ==== Sys2Proof/Laws/PerInstr.lean ====
section
/-! SUPPORT. A statement about every instruction as syntax: its encoding lies in its own row of the opcode map (R97). -/

namespace Sys2Proof.Laws

/-- The row of the opcode map an instruction's number names; none for UNHANDLED. -/
def rowOf (i : Instr) : Option OpcodeRow := opcodeMap.find? (fun r => r.number == i.row)

/-- The instruction has a row exactly if it is not UNHANDLED, and its encoding selects that row. -/
def EncodesInRow.Statement (i : Instr) : Prop :=
  match rowOf i with
  | some r => i.isUnhandled = false ∧ encode i &&& r.mask = r.pattern
  | none => i.isUnhandled = true

theorem EncodesInRow.op00E0 : EncodesInRow.Statement .op00E0 :=
  ⟨rfl, rfl⟩

theorem EncodesInRow.op00EE : EncodesInRow.Statement .op00EE :=
  ⟨rfl, rfl⟩

theorem EncodesInRow.op1NNN (nnn : Imm12) : EncodesInRow.Statement (.op1NNN nnn) :=
  ⟨rfl, formatNNN_family 0x1#4 nnn⟩

theorem EncodesInRow.op2NNN (nnn : Imm12) : EncodesInRow.Statement (.op2NNN nnn) :=
  ⟨rfl, formatNNN_family 0x2#4 nnn⟩

theorem EncodesInRow.op3XNN (x : Reg) (nn : Byte) : EncodesInRow.Statement (.op3XNN x nn) :=
  ⟨rfl, formatXNN_family 0x3#4 x nn⟩

theorem EncodesInRow.op4XNN (x : Reg) (nn : Byte) : EncodesInRow.Statement (.op4XNN x nn) :=
  ⟨rfl, formatXNN_family 0x4#4 x nn⟩

theorem EncodesInRow.op5XY0 (x : Reg) (y : Reg) : EncodesInRow.Statement (.op5XY0 x y) :=
  ⟨rfl, formatXYN_family 0x5#4 x y 0x0#4⟩

theorem EncodesInRow.op6XNN (x : Reg) (nn : Byte) : EncodesInRow.Statement (.op6XNN x nn) :=
  ⟨rfl, formatXNN_family 0x6#4 x nn⟩

theorem EncodesInRow.op7XNN (x : Reg) (nn : Byte) : EncodesInRow.Statement (.op7XNN x nn) :=
  ⟨rfl, formatXNN_family 0x7#4 x nn⟩

theorem EncodesInRow.op8XY0 (x : Reg) (y : Reg) : EncodesInRow.Statement (.op8XY0 x y) :=
  ⟨rfl, formatXYN_nibble 0x8#4 x y 0x0#4⟩

theorem EncodesInRow.op8XY1 (x : Reg) (y : Reg) : EncodesInRow.Statement (.op8XY1 x y) :=
  ⟨rfl, formatXYN_nibble 0x8#4 x y 0x1#4⟩

theorem EncodesInRow.op8XY2 (x : Reg) (y : Reg) : EncodesInRow.Statement (.op8XY2 x y) :=
  ⟨rfl, formatXYN_nibble 0x8#4 x y 0x2#4⟩

theorem EncodesInRow.op8XY3 (x : Reg) (y : Reg) : EncodesInRow.Statement (.op8XY3 x y) :=
  ⟨rfl, formatXYN_nibble 0x8#4 x y 0x3#4⟩

theorem EncodesInRow.op8XY4 (x : Reg) (y : Reg) : EncodesInRow.Statement (.op8XY4 x y) :=
  ⟨rfl, formatXYN_nibble 0x8#4 x y 0x4#4⟩

theorem EncodesInRow.op8XY5 (x : Reg) (y : Reg) : EncodesInRow.Statement (.op8XY5 x y) :=
  ⟨rfl, formatXYN_nibble 0x8#4 x y 0x5#4⟩

theorem EncodesInRow.op8XY6 (x : Reg) (y : Reg) : EncodesInRow.Statement (.op8XY6 x y) :=
  ⟨rfl, formatXYN_nibble 0x8#4 x y 0x6#4⟩

theorem EncodesInRow.op8XY7 (x : Reg) (y : Reg) : EncodesInRow.Statement (.op8XY7 x y) :=
  ⟨rfl, formatXYN_nibble 0x8#4 x y 0x7#4⟩

theorem EncodesInRow.op8XYE (x : Reg) (y : Reg) : EncodesInRow.Statement (.op8XYE x y) :=
  ⟨rfl, formatXYN_nibble 0x8#4 x y 0xE#4⟩

theorem EncodesInRow.op9XY0 (x : Reg) (y : Reg) : EncodesInRow.Statement (.op9XY0 x y) :=
  ⟨rfl, formatXYN_family 0x9#4 x y 0x0#4⟩

theorem EncodesInRow.opANNN (nnn : Imm12) : EncodesInRow.Statement (.opANNN nnn) :=
  ⟨rfl, formatNNN_family 0xA#4 nnn⟩

theorem EncodesInRow.opBNNN (nnn : Imm12) : EncodesInRow.Statement (.opBNNN nnn) :=
  ⟨rfl, formatNNN_family 0xB#4 nnn⟩

theorem EncodesInRow.opCXNN (x : Reg) (nn : Byte) : EncodesInRow.Statement (.opCXNN x nn) :=
  ⟨rfl, formatXNN_family 0xC#4 x nn⟩

theorem EncodesInRow.opDXYN (x : Reg) (y : Reg) (n : Nibble) : EncodesInRow.Statement (.opDXYN x y n) :=
  ⟨rfl, formatXYN_family 0xD#4 x y n⟩

theorem EncodesInRow.opEX9E (x : Reg) : EncodesInRow.Statement (.opEX9E x) :=
  ⟨rfl, formatXNN_byte 0xE#4 x 0x9E#8⟩

theorem EncodesInRow.opEXA1 (x : Reg) : EncodesInRow.Statement (.opEXA1 x) :=
  ⟨rfl, formatXNN_byte 0xE#4 x 0xA1#8⟩

theorem EncodesInRow.opFX07 (x : Reg) : EncodesInRow.Statement (.opFX07 x) :=
  ⟨rfl, formatXNN_byte 0xF#4 x 0x07#8⟩

theorem EncodesInRow.opFX0A (x : Reg) : EncodesInRow.Statement (.opFX0A x) :=
  ⟨rfl, formatXNN_byte 0xF#4 x 0x0A#8⟩

theorem EncodesInRow.opFX15 (x : Reg) : EncodesInRow.Statement (.opFX15 x) :=
  ⟨rfl, formatXNN_byte 0xF#4 x 0x15#8⟩

theorem EncodesInRow.opFX18 (x : Reg) : EncodesInRow.Statement (.opFX18 x) :=
  ⟨rfl, formatXNN_byte 0xF#4 x 0x18#8⟩

theorem EncodesInRow.opFX1E (x : Reg) : EncodesInRow.Statement (.opFX1E x) :=
  ⟨rfl, formatXNN_byte 0xF#4 x 0x1E#8⟩

theorem EncodesInRow.opFX29 (x : Reg) : EncodesInRow.Statement (.opFX29 x) :=
  ⟨rfl, formatXNN_byte 0xF#4 x 0x29#8⟩

theorem EncodesInRow.opFX33 (x : Reg) : EncodesInRow.Statement (.opFX33 x) :=
  ⟨rfl, formatXNN_byte 0xF#4 x 0x33#8⟩

theorem EncodesInRow.opFX55 (x : Reg) : EncodesInRow.Statement (.opFX55 x) :=
  ⟨rfl, formatXNN_byte 0xF#4 x 0x55#8⟩

theorem EncodesInRow.opFX65 (x : Reg) : EncodesInRow.Statement (.opFX65 x) :=
  ⟨rfl, formatXNN_byte 0xF#4 x 0x65#8⟩

theorem EncodesInRow.unhandled (op : Word) : EncodesInRow.Statement (.unhandled op) := rfl

end Sys2Proof.Laws
end

