-- ==== Sys2Proof/Tests/Slice0.lean ====
section
/-! SUPPORT. Tests on fixed values: well-formedness, decoding, one step at a time, and a witness for every hypothesis of
the statements. Expected values are those of 95_test_vectors.md (A and B rows) and of the rules' own examples. -/

namespace Sys2Proof.Tests

open Sys2Proof.Machine Sys2Proof.Safety

/-! ### Helpers -/

/-- Put the word w where the next step fetches and take one step. From a Ready state that is at 0x200. -/
def after (s : State) (w : Nat) : Option State :=
  match step (s.withFetchWord 16 w) with
  | .next t => some t
  | .fault _ => none
  | .refused _ => none

/-- The same, for what the step returns. -/
def result (s : State) (w : Nat) : Option StepResult := stepResult (s.withFetchWord 16 w)

/-- The state after reset with one general register set. -/
def withV (r : Reg) (b : Byte) : State := State.reset.setV r b

/-- The state after reset with one pixel on, in row y and column x. -/
def withPixel (y : Fin 32) (x : Fin 64) : State := { State.reset with fb := Frame.clear.toggle y x }

/-- The state after reset with I set and bytes stored there. -/
def withBytes (i : Word) (bs : List Byte) : State := (State.reset.setI i).storeBytes i.toNat bs

/-- A Playing machine whose next word is w. -/
def ready (w : Nat) : State := State.reset.withFetchWord 16 w

/-- A Playing machine with pc at 0x0FFE, the last address a fetch can use, and the word w there. -/
def atEnd (w : Nat) : State := { State.reset with runState := .playing, pc := 0x0FFE#16 }.withFetchWord 16 w

/-! ### Well-formedness: the one check, and a term it refuses for each condition of R100 -/

theorem test_wf_refuses_defined_family : (Instr.unhandled 0x1200#16).wf = false := by decide
theorem test_wf_refuses_family_0 : (Instr.unhandled 0x05EE#16).wf = false ∧ (Instr.unhandled 0x00E1#16).wf = true := by
  decide
theorem test_wf_refuses_family_8 : (Instr.unhandled 0x812E#16).wf = false ∧ (Instr.unhandled 0x8128#16).wf = true := by
  decide
theorem test_wf_refuses_family_E : (Instr.unhandled 0xE19E#16).wf = false ∧ (Instr.unhandled 0xE09F#16).wf = true := by
  decide
theorem test_wf_refuses_family_F : (Instr.unhandled 0xF165#16).wf = false ∧ (Instr.unhandled 0xF175#16).wf = true := by
  decide

/-! ### Decoding: words written out bit by bit from the encodings of files 40 to 44 -/

theorem test_decode_0 :
    decode 0b0000000011100000#16 = .op00E0 ∧ decode 0b0000000011101110#16 = .op00EE ∧
    decode 0b0000111111100000#16 = .op00E0 ∧ decode 0b0000000000000000#16 = .unhandled 0x0000#16 := by decide
theorem test_decode_jumps :
    decode 0b0001101010111100#16 = .op1NNN 0xABC#12 ∧ decode 0b0010001100000000#16 = .op2NNN 0x300#12 ∧
    decode 0b1010001011110000#16 = .opANNN 0x2F0#12 ∧ decode 0b1011001100000000#16 = .opBNNN 0x300#12 := by decide
theorem test_decode_immediates :
    decode 0b0011001100101010#16 = .op3XNN 3 0x2A#8 ∧ decode 0b0100001100101010#16 = .op4XNN 3 0x2A#8 ∧
    decode 0b0110101000101111#16 = .op6XNN 10 0x2F#8 ∧ decode 0b0111000100100000#16 = .op7XNN 1 0x20#8 ∧
    decode 0b1100001100001111#16 = .opCXNN 3 0x0F#8 := by decide
theorem test_decode_skips :
    decode 0b0101000100100000#16 = .op5XY0 1 2 ∧ decode 0b0101000100100111#16 = .op5XY0 1 2 ∧
    decode 0b1001000100100000#16 = .op9XY0 1 2 ∧ decode 0b1001000100101111#16 = .op9XY0 1 2 := by decide
theorem test_decode_8 :
    decode 0b1000000100100000#16 = .op8XY0 1 2 ∧ decode 0b1000000100100001#16 = .op8XY1 1 2 ∧
    decode 0b1000000100100010#16 = .op8XY2 1 2 ∧ decode 0b1000000100100011#16 = .op8XY3 1 2 ∧
    decode 0b1000101010110100#16 = .op8XY4 10 11 ∧ decode 0b1000000100100101#16 = .op8XY5 1 2 ∧
    decode 0b1000000100100110#16 = .op8XY6 1 2 ∧ decode 0b1000000100100111#16 = .op8XY7 1 2 ∧
    decode 0b1000000100101110#16 = .op8XYE 1 2 ∧ decode 0b1000000000001111#16 = .unhandled 0x800F#16 := by decide
theorem test_decode_D : decode 0b1101000100101010#16 = .opDXYN 1 2 0xA#4 := by decide
theorem test_decode_E :
    decode 0b1110000110011110#16 = .opEX9E 1 ∧ decode 0b1110001010100001#16 = .opEXA1 2 ∧
    decode 0b1110000100001110#16 = .unhandled 0xE10E#16 := by decide
theorem test_decode_F :
    decode 0b1111010000000111#16 = .opFX07 4 ∧ decode 0b1111001100001010#16 = .opFX0A 3 ∧
    decode 0b1111010000010101#16 = .opFX15 4 ∧ decode 0b1111010000011000#16 = .opFX18 4 ∧
    decode 0b1111001000011110#16 = .opFX1E 2 ∧ decode 0b1111010000101001#16 = .opFX29 4 ∧
    decode 0b1111010100110011#16 = .opFX33 5 ∧ decode 0b1111001001010101#16 = .opFX55 2 ∧
    decode 0b1111100101100101#16 = .opFX65 9 ∧ decode 0b1111111111111111#16 = .unhandled 0xFFFF#16 := by decide
theorem test_decode_bytes :
    decodeBytes [0xA2#8, 0xF0#8, 0x00#8] = .ok (.opANNN 0x2F0#12, [0x00#8]) ∧ decodeBytes [0xA2#8] = .error .oneByte ∧
    decodeBytes [] = .error .noBytes := by decide
theorem test_decode_table_word :
    decodeTableWord 16 0xA2F0 = some (.opANNN 0x2F0#12) ∧ decodeTableWord 16 0x1F065 = some (.opFX65 0) := by decide
/-- B7.1: the fields of the word D12A. -/
theorem test_fields :
    family 0xD12A#16 = 0xD#4 ∧ fieldX 0xD12A#16 = 1 ∧ fieldY 0xD12A#16 = 2 ∧ fieldN 0xD12A#16 = 0xA#4 ∧
    fieldNN 0xD12A#16 = 0x2A#8 ∧ fieldNNN 0xD12A#16 = 0x12A#12 := by decide
/-- The encoder against the words of Part B. -/
theorem test_encode :
    encode (.opDXYN 1 2 0xA#4) = 0xD12A#16 ∧ encode (.op8XY4 10 11) = 0x8AB4#16 ∧ encode (.opFX65 9) = 0xF965#16 ∧
    encode (.opANNN 0x2F0#12) = 0xA2F0#16 ∧ encodeBytes (.op6XNN 10 0x2F#8) = [0x6A#8, 0x2F#8] := by decide
/-- R104: of all words, the opcode map selects one row for a defined one and none for an unhandled one; here a word of
each of the 34 rows in turn, which is also a witness for every mask and match a statement names. -/
theorem test_rows_selected :
    [0x07E0#16, 0x05EE#16, 0x1ABC#16, 0x2300#16, 0x332A#16, 0x432A#16, 0x5127#16, 0x6A2F#16, 0x7120#16, 0x8120#16,
      0x8121#16, 0x8122#16, 0x8123#16, 0x8014#16, 0x8015#16, 0x8016#16, 0x8127#16, 0x812E#16, 0x912F#16, 0xA2F0#16,
      0xB300#16, 0xC30F#16, 0xD121#16, 0xE29E#16, 0xE2A1#16, 0xF407#16, 0xF30A#16, 0xF415#16, 0xF418#16, 0xF21E#16,
      0xF429#16, 0xF533#16, 0xF255#16, 0xF265#16, 0xE10E#16].map rowsSelected =
    (List.range 34).map (fun k => [k + 1]) ++ [[]] := by decide

/-! ### Control transfer (B1) -/

theorem test_00EE :
    (after { State.reset with sp := 1, stk := State.reset.stk.set 0 0x0204#16 } 0x00EE).map (fun t => (t.pc, t.sp)) =
      some (0x0204#16, 0) := by decide
theorem test_00EE_underflow :
    (after State.reset 0x00EE).map (fun t => (t.pc, t.fault)) = some (0x0200#16, some .stackUnderflow) := by decide
theorem test_1NNN : (after State.reset 0x1ABC).map State.pc = some 0x0ABC#16 := by decide
theorem test_1NNN_self : after State.reset 0x1200 = some (State.reset.withFetchWord 16 0x1200) := by decide
theorem test_2NNN :
    (after { State.reset with sp := 15 } 0x2300).map (fun t => (t.stk[15], t.sp, t.pc)) =
      some (0x0202#16, 16, 0x0300#16) := by decide
theorem test_2NNN_overflow :
    (after { State.reset with sp := 16 } 0x2300).map (fun t => (t.pc, t.sp, t.fault)) =
      some (0x0200#16, 16, some .stackOverflow) := by decide
theorem test_3XNN :
    (after (withV 3 0x2A#8) 0x332A).map State.pc = some 0x0204#16 ∧
    (after (withV 3 0x2B#8) 0x332A).map State.pc = some 0x0202#16 := by decide
theorem test_4XNN :
    (after (withV 3 0x2A#8) 0x432A).map State.pc = some 0x0202#16 ∧
    (after (withV 3 0x2B#8) 0x432A).map State.pc = some 0x0204#16 := by decide
theorem test_5XY0 :
    (after ((withV 1 7#8).setV 2 7#8) 0x5127).map State.pc = some 0x0204#16 ∧
    (after ((withV 1 7#8).setV 2 8#8) 0x5120).map State.pc = some 0x0202#16 := by decide
theorem test_9XY0 :
    (after ((withV 1 7#8).setV 2 8#8) 0x912F).map State.pc = some 0x0204#16 ∧
    (after ((withV 1 7#8).setV 2 7#8) 0x9120).map State.pc = some 0x0202#16 := by decide
theorem test_BNNN : (after ((withV 0 4#8).setV 3 0x77#8) 0xB300).map State.pc = some 0x0304#16 := by decide
theorem test_BNNN_high : (after (withV 0 0xFF#8) 0xBFFF).map State.pc = some 0x10FE#16 := by decide
theorem test_unhandled :
    (after ((withV 1 0x11#8).setV 15 0x33#8) 0x8128).map (fun t => (t.pc, t.getV 1, t.getV 15)) =
      some (0x0202#16, 0x11#8, 0x33#8) ∧ result State.reset 0x8128 = some .unhandled := by decide

/-! ### Load, arithmetic, logic, shift, random (A1 to A4, B2) -/

theorem test_6XNN : (after State.reset 0x6A2F).map (State.getV · 10) = some 0x2F#8 := by decide
theorem test_7XNN :
    (after ((withV 1 0xF0#8).setV 15 0x55#8) 0x7120).map (fun t => (t.getV 1, t.getV 15)) = some (0x10#8, 0x55#8) := by
  decide
theorem test_8XY0 : (after (withV 2 0x5C#8) 0x8120).map (State.getV · 1) = some 0x5C#8 := by decide
theorem test_8XY1 : (after ((withV 1 0x0F#8).setV 2 0xF0#8) 0x8121).map (State.getV · 1) = some 0xFF#8 := by decide
theorem test_8XY2 : (after ((withV 1 0x3C#8).setV 2 0xF0#8) 0x8122).map (State.getV · 1) = some 0x30#8 := by decide
theorem test_8XY3 : (after ((withV 1 0x3C#8).setV 2 0xF0#8) 0x8123).map (State.getV · 1) = some 0xCC#8 := by decide
theorem test_8XY4 :
    (after ((withV 0 0xFF#8).setV 1 1#8) 0x8014).map (fun t => (t.getV 0, t.getV 15)) = some (0#8, 1#8) ∧
    (after ((withV 0 0x80#8).setV 1 0x7F#8) 0x8014).map (fun t => (t.getV 0, t.getV 15)) = some (0xFF#8, 0#8) := by
  decide
theorem test_8XY4_flag_destination : (after ((withV 15 0x90#8).setV 0 0x90#8) 0x8F04).map (State.getV · 15) = some 1#8 := by
  decide
theorem test_8XY5 :
    (after ((withV 0 3#8).setV 1 5#8) 0x8015).map (fun t => (t.getV 0, t.getV 15)) = some (0xFE#8, 0#8) ∧
    (after ((withV 0 7#8).setV 1 7#8) 0x8015).map (fun t => (t.getV 0, t.getV 15)) = some (0#8, 0#8) := by decide
theorem test_8XY5_flag_operand :
    (after ((withV 15 5#8).setV 0 3#8) 0x8F05).map (State.getV · 15) = some 2#8 ∧
    (after ((withV 0 5#8).setV 15 3#8) 0x80F5).map (fun t => (t.getV 0, t.getV 15)) = some (2#8, 1#8) := by decide
theorem test_8XY6 :
    (after ((withV 0 1#8).setV 1 0xAA#8) 0x8016).map (fun t => (t.getV 0, t.getV 1, t.getV 15)) =
      some (0#8, 0xAA#8, 1#8) := by decide
theorem test_8XY6_flag_destination : (after (withV 15 3#8) 0x8F06).map (State.getV · 15) = some 1#8 := by decide
theorem test_8XY7 :
    (after ((withV 1 3#8).setV 2 5#8) 0x8127).map (fun t => (t.getV 1, t.getV 15)) = some (2#8, 1#8) ∧
    (after ((withV 1 5#8).setV 2 3#8) 0x8127).map (fun t => (t.getV 1, t.getV 15)) = some (0xFE#8, 0#8) := by decide
theorem test_8XY7_flag_operand :
    (after ((withV 15 3#8).setV 0 5#8) 0x8F07).map (State.getV · 15) = some 2#8 ∧
    (after ((withV 0 3#8).setV 15 5#8) 0x80F7).map (fun t => (t.getV 0, t.getV 15)) = some (2#8, 1#8) := by decide
theorem test_8XYE : (after (withV 1 0x81#8) 0x812E).map (fun t => (t.getV 1, t.getV 15)) = some (2#8, 1#8) := by decide
theorem test_8XYE_flag_destination : (after (withV 15 0x81#8) 0x8F0E).map (State.getV · 15) = some 2#8 := by decide
/-- B2.37: a mask of 0 gives 0 whatever the draw. -/
theorem test_CXNN : (after (withV 3 0x77#8) 0xC300).map (fun t => (t.getV 3, t.pc)) = some (0#8, 0x0202#16) := by
  have h : ∀ b : Byte, (some (b &&& 0#8, 0x0202#16) : Option (Byte × Word)) = some (0#8, 0x0202#16) := by simp
  exact h (Config.rnd 0)

/-! ### The index register, loads and stores (B3) -/

theorem test_ANNN : (after State.reset 0xA2F0).map State.i = some 0x02F0#16 := by decide
theorem test_FX1E :
    (after (((withV 2 1#8).setI 0x0FFF#16).setV 15 0x55#8) 0xF21E).map (fun t => (t.i, t.getV 15)) =
      some (0x1000#16, 0x55#8) ∧
    (after ((withV 2 1#8).setI 0xFFFF#16) 0xF21E).map State.i = some 0#16 := by decide
theorem test_FX29_fault :
    (after (withV 4 0x10#8) 0xF429).map (fun t => (t.i, t.pc, t.fault)) =
      some (0#16, 0x0200#16, some .fontDigitFault) := by decide
theorem test_FX33 :
    (after ((withV 5 0x9C#8).setI 0x0300#16) 0xF533).map
      (fun t => [t.readByte 0x300, t.readByte 0x301, t.readByte 0x302]) = some [1#8, 5#8, 6#8] := by decide
theorem test_FX33_fault :
    (after ((withV 5 9#8).setI 0x0FFE#16) 0xF533).map (fun t => (t.readByte 0xFFE, t.readByte 0xFFF, t.fault)) =
      some (0#8, 0#8, some .dataAddressFault) := by decide
theorem test_FX55 :
    (after (((((withV 0 0x11#8).setV 1 0x22#8).setV 2 0x33#8).setV 3 0x44#8).setI 0x0400#16) 0xF255).map
      (fun t => ([t.readByte 0x400, t.readByte 0x401, t.readByte 0x402, t.readByte 0x403], t.i)) =
      some ([0x11#8, 0x22#8, 0x33#8, 0#8], 0x0400#16) := by decide
theorem test_FX55_fault :
    (after ((withV 0 0x11#8).setI 0x0FF1#16) 0xFF55).map (fun t => (t.readByte 0xFF1, t.fault)) =
      some (0#8, some .dataAddressFault) := by decide
theorem test_FX65 :
    (after ((withBytes 0x0400#16 [0xAA#8, 0xBB#8, 0xCC#8, 0xDD#8]).setV 3 0x77#8) 0xF265).map
      (fun t => ([t.getV 0, t.getV 1, t.getV 2, t.getV 3], t.i)) =
      some ([0xAA#8, 0xBB#8, 0xCC#8, 0x77#8], 0x0400#16) := by decide
theorem test_FX65_fault :
    (after (State.reset.setI 0x0FFF#16) 0xF165).map (fun t => (t.getV 0, t.fault)) =
      some (0#8, some .dataAddressFault) := by decide

/-! ### The display (B4) -/

theorem test_00E0 :
    (after (withPixel 3 5) 0x00E0).map (fun t => (t.pixel 3 5, t.redraw, t.pc)) = some (false, true, 0x0202#16) := by
  decide
/-- B4.6: with (3, 3) on, the two bits C0 at (2, 3) turn one pixel on and the other off. -/
theorem test_DXYN :
    (after ({ withBytes 0x0300#16 [0xC0#8] with fb := (withPixel 3 3).fb }.setV 1 2#8 |>.setV 2 3#8) 0xD121).map
      (fun t => (t.pixel 3 2, t.pixel 3 3, t.getV 15, t.redraw)) = some (true, false, 1#8, true) := by decide
/-- B4.8: a row of eight at column 60 is cut, not wrapped. -/
theorem test_DXYN_clips :
    (after ((withBytes 0x0300#16 [0xFF#8]).setV 1 60#8) 0xD121).map
      (fun t => (t.pixel 0 60, t.pixel 0 63, t.pixel 0 0, t.getV 15)) = some (true, true, false, 0#8) := by decide

/-! ### Keypad and timers (A9, A10, B5) -/

theorem test_EX9E :
    (after (setKeys 0x8000#16 (withV 2 0x0F#8)) 0xE29E).map State.pc = some 0x0204#16 ∧
    (after (setKeys 0xFFDF#16 (withV 2 5#8)) 0xE29E).map State.pc = some 0x0202#16 := by decide
theorem test_EX9E_fault :
    (after (withV 2 0x10#8) 0xE29E).map (fun t => (t.pc, t.fault)) = some (0x0200#16, some .keyIndexFault) := by decide
theorem test_EXA1 :
    (after (withV 2 5#8) 0xE2A1).map State.pc = some 0x0204#16 ∧
    (after (setKeys 0x0020#16 (withV 2 5#8)) 0xE2A1).map State.pc = some 0x0202#16 := by decide
theorem test_EXA1_fault : (after (withV 2 0xFF#8) 0xE2A1).map State.fault = some (some .keyIndexFault) := by decide
theorem test_FX0A_polls :
    (after (withV 3 0x77#8) 0xF30A).map (fun t => (t.pc, t.getV 3)) = some (0x0200#16, 0x77#8) ∧
    result (withV 3 0x77#8) 0xF30A = some .executed := by decide
theorem test_FX0A_highest :
    (after (setKeys 0x0048#16 State.reset) 0xF30A).map (fun t => (t.getV 3, t.pc)) = some (6#8, 0x0202#16) := by decide
theorem test_FX07 : (after (State.reset.setDT 0x3C#8) 0xF407).map (fun t => (t.getV 4, t.dt)) = some (0x3C#8, 0x3C#8) := by
  decide
theorem test_FX15 : (after (withV 4 0x3C#8) 0xF415).map State.dt = some 0x3C#8 := by decide
theorem test_FX18 :
    (after (withV 4 2#8) 0xF418).map (fun t => (t.st, buzzerActive t)) = some (2#8, true) ∧
    (after (State.reset.setST 9#8) 0xF418).map (fun t => (t.st, buzzerActive t)) = some (0#8, false) := by decide

/-! ### Transactions (A8, B5, B6) -/

theorem test_tick :
    (tickTimers { ready 0 with dt := 5#8, st := 1#8 }).dt = 4#8 ∧ (tickTimers { ready 0 with dt := 5#8, st := 1#8 }).st = 0#8 ∧
    (tickTimers { ready 0 with dt := 0#8, st := 7#8 }).dt = 0#8 ∧ (tickTimers (pause ((ready 0).setDT 5#8))).dt = 5#8 := by
  decide
/-- B6.2: `step` in Ready does nothing. -/
theorem test_reset_is_idle : step State.reset = .next State.reset ∧ stepResult State.reset = some .idle := ⟨rfl, rfl⟩
/-- B6.4, B6.5: an empty ROM is accepted and its first word is 0000. -/
theorem test_load_empty :
    loadResult [] State.reset = .loaded ∧ stepResult (loadRom [] State.reset) = some .unhandled := by decide
theorem test_load_bytes :
    (loadRom [0x12#8, 0x34#8] State.reset).fetch = 0x1234#16 ∧
    loadResult [0x12#8] (loadRom [0x12#8, 0x34#8] State.reset) = .loadRefused := by decide
/-- B6.9: Quit stays, and steps are Idle. -/
theorem test_quit :
    (resume (quit (ready 0x1200))).runState = .quit ∧ stepResult (quit (ready 0x1200)) = some .idle := by decide
/-- B1.28, B1.29: the last fetchable address, and the first that is not. -/
theorem test_fetch_bounds :
    stepResult (atEnd 0x1200) = some .executed ∧
    stepResult { ready 0 with pc := 0x0FFF#16 } = some (.fault .fetchFault) := by decide

/-! ### Witnesses: for each statement with hypotheses, values that meet all of them, clause by clause at the ends of the
ranges. Where a statement takes a step from `exec`, the witness is that step, run. -/

/-- What `exec` answers, as a next state. -/
def nextOf (i : Instr) (s : State) : Option State :=
  match exec i s with
  | .next t => some t
  | .fault _ => none
  | .refused _ => none

/-- V0 is 15, the largest digit and key number. -/
def v15 : State := withV 0 15#8

/-- V0 is 16, the smallest value that is none. -/
def v16 : State := withV 0 16#8

theorem witness_DecodeOfEncode : (Instr.opDXYN 15 15 0xF#4).wf = true ∧ (Instr.unhandled 0x0000#16).wf = true := by decide
theorem witness_UnhandledSpace : unhandledWord 0x0000#16 = true ∧ unhandledWord 0xFFFF#16 = true := by decide
theorem witness_FieldsOfAWord : 0xD12A#16 = wordOfBytes 0xD1#8 0x2A#8 := by decide
theorem witness_StepRunsDecodedInstruction :
    (atEnd 0x6A2F).runState = .playing ∧ (atEnd 0x6A2F).fault = none ∧ (atEnd 0x6A2F).pc.toNat = 0x0FFE ∧
    decodeBytes [(atEnd 0x6A2F).readByte 0x0FFE, (atEnd 0x6A2F).readByte 0x0FFF] = .ok (.op6XNN 10 0x2F#8, []) := by decide
theorem witness_StepTransaction :
    ¬(State.reset.runState = .playing ∧ State.reset.fault = none) ∧
    (({ ready 0 with pc := 0x0FFF#16 } : State).runState = .playing ∧
      ({ ready 0 with pc := 0x0FFF#16 } : State).fault = none ∧ 0x0FFE < (0x0FFF#16).toNat) ∧
    ((atEnd 0x00EE).pc.toNat ≤ 0x0FFE ∧ decode (atEnd 0x00EE).fetch = .op00EE ∧
      faultCondition .op00EE (atEnd 0x00EE) = some .stackUnderflow) ∧
    ((atEnd 0x1200).pc.toNat ≤ 0x0FFE ∧ decode (atEnd 0x1200).fetch = .op1NNN 0x200#12 ∧
      faultCondition (.op1NNN 0x200#12) (atEnd 0x1200) = none) := by decide
theorem witness_FaultsArePrecise :
    faultCondition (.op2NNN 0x300#12) { State.reset with sp := 16 } = some .stackOverflow ∧
    faultCondition (.op2NNN 0x300#12) { State.reset with sp := 15 } = none ∧
    faultCondition (.opDXYN 0 0 5#4) (State.reset.setI 0x0FFC#16) = some .dataAddressFault ∧
    faultCondition (.opDXYN 0 0 5#4) (State.reset.setI 0x0FFB#16) = none ∧
    faultCondition (.opEX9E 0) v16 = some .keyIndexFault ∧ faultCondition (.opEX9E 0) v15 = none := by decide
theorem witness_FaultedMachineIsFrozen : (State.reset.latch .fetchFault).fault ≠ none ∧ Txn.step ≠ .init := by decide
theorem witness_StateInv : StateInv (ready 0x1200) ∧ StateInv (atEnd 0x1200) := by unfold StateInv; decide
theorem witness_StepKeepsInvariant : (after State.reset 0x2300).map State.pc = some 0x0300#16 := by decide
theorem witness_HostKeepsInvariant :
    Txn.pause ≠ .step ∧ transact .pause (ready 0x1200) = .next { ready 0x1200 with runState := .paused } := ⟨by decide, rfl⟩
theorem witness_MemoryListingIsCanonical : Memory.wf [(0x200, 1#8), (0xFFF, 2#8)] := by decide
theorem witness_InstructionFrames : (nextOf (.op6XNN 1 7#8) State.reset).map (State.getV · 1) = some 7#8 := by decide
theorem witness_PcTable :
    faultCondition .op00EE State.reset = some .stackUnderflow ∧ (nextOf .op00EE State.reset).map State.pc = some 0#16 ∧
    faultCondition (.op1NNN 0xFFF#12) State.reset = none ∧
    (nextOf (.op1NNN 0xFFF#12) State.reset).map State.pc = some 0x0FFF#16 := by decide
theorem witness_FlagWriters :
    faultCondition (.opDXYN 1 2 1#4) (withBytes 0x0300#16 [0xC0#8]) = none ∧
    (nextOf (.opDXYN 1 2 1#4) { withBytes 0x0300#16 [0xC0#8] with fb := (withPixel 0 0).fb }).map
      (fun t => ((withPixel 0 0).pixel 0 0, t.pixel 0 0, t.getV 15)) = some (true, false, 1#8) ∧
    (nextOf (.opDXYN 1 2 0#4) (withPixel 0 0)).map (fun t => (t.fb == (withPixel 0 0).fb, t.getV 15)) =
      some (true, 0#8) ∧
    (nextOf (.op6XNN 15 1#8) State.reset).map (fun t => t.getV 15 != State.reset.getV 15) = some true := by decide
theorem witness_UnobservableState : (nextOf (.opFX18 0) v15).map State.st = some 15#8 := by decide
theorem witness_KeysAndDrawsReadWhere :
    (∀ x, Instr.opFX07 0 ≠ .opEX9E x ∧ Instr.opFX07 0 ≠ .opEXA1 x ∧ Instr.opFX07 0 ≠ .opFX0A x) ∧
    (∀ x nn, Instr.opFX07 0 ≠ .opCXNN x nn) := by simp
theorem witness_SelfJumpHolds :
    (ready 0x1200).runState = .playing ∧ (ready 0x1200).fault = none ∧ (ready 0x1200).pc.toNat ≤ 0x0FFE ∧
    (ready 0x1200).readByte 0x200 ++ (ready 0x1200).readByte 0x201 = 0x1#4 ++ ((ready 0x1200).pc.setWidth 12) := by decide
theorem witness_CallPushes :
    ({ State.reset with sp := 15 } : State).sp.val ≠ 16 ∧ ({ State.reset with sp := 16 } : State).sp.val = 16 := by decide
theorem witness_ReturnPops :
    ({ State.reset with sp := 16 } : State).sp.val = (15 : Fin 16).val + 1 ∧ State.reset.sp.val = 0 := by decide
theorem witness_ReturnComesBack :
    ({ State.reset with sp := 15 } : State).sp.val ≠ 16 ∧
    (nextOf (.op2NNN 0x300#12) { State.reset with sp := 15 }).map (fun t => (t.sp, t.stk[15])) = some (16, 2#16) := by
  decide
theorem witness_UnhandledAdvances :
    (atEnd 0x0000).runState = .playing ∧ (atEnd 0x0000).fault = none ∧ (atEnd 0x0000).pc.toNat ≤ 0x0FFE ∧
    unhandledWord (atEnd 0x0000).fetch = true := by decide
theorem witness_GlyphAddress : (v15.getV 0).toNat ≤ 15 ∧ 15 < (v16.getV 0).toNat := by decide
theorem witness_StoreDecimal :
    (State.reset.setI 0x0FFD#16).i.toNat + 2 ≤ 0xFFF ∧ 0xFFF < (State.reset.setI 0x0FFE#16).i.toNat + 2 := by decide
theorem witness_StoreBlock :
    (State.reset.setI 0x0FF0#16).i.toNat + (15 : Reg).val ≤ 0xFFF ∧
    0xFFF < (State.reset.setI 0x0FF1#16).i.toNat + (15 : Reg).val := by decide
theorem witness_LoadBlock :
    (State.reset.setI 0x0FFF#16).i.toNat + (0 : Reg).val ≤ 0xFFF ∧
    0xFFF < (State.reset.setI 0x0FFF#16).i.toNat + (1 : Reg).val := by decide
/-- The step at 0x200 stores V0, V1 over the next instruction at 0x202. -/
theorem witness_StoreSeenByNextFetch :
    ((ready 0xF155).setI 0x0202#16).i.toNat + (1 : Reg).val ≤ 0xFFF ∧ (1 : Reg).val = (0 : Reg).val + 1 ∧
    (((ready 0xF155).setI 0x0202#16).pc + 2#16).toNat = ((ready 0xF155).setI 0x0202#16).i.toNat + (0 : Reg).val ∧
    (nextOf (.opFX55 1) (((ready 0xF155).setI 0x0202#16).setV 0 0x12#8)).map State.fetch = some 0x1200#16 := by decide
theorem witness_DrawSprite :
    0#4 = 0#4 ∧ (State.reset.setI 0x0FFB#16).i.toNat + (5#4).toNat - 1 ≤ 0xFFF ∧
    5#4 ≠ 0#4 ∧ 0xFFF < (State.reset.setI 0x0FFC#16).i.toNat + (5#4).toNat - 1 ∧
    (withPixel 0 0).pixel 0 0 = true ∧ spriteBit (withBytes 0x0300#16 [0xC0#8]) 0 0 1 0 0 = true ∧
    spriteBit State.reset 0 0 0 0 0 = false := by decide
/-- Both directions of the flag: a set bit that fell on an off pixel, and a sprite whose one set bit fell on an on one. -/
theorem witness_DrawTwiceRestores :
    let on := { withBytes 0x0300#16 [0x80#8] with fb := (withPixel 0 0).fb }
    ((nextOf (.opDXYN 0 1 1#4) (withBytes 0x0300#16 [0x80#8])).bind (nextOf (.opDXYN 0 1 1#4))).map
      (fun u => (u.pixel 0 0, u.getV 15)) = some (false, 1#8) ∧
    ((nextOf (.opDXYN 0 1 1#4) on).bind (nextOf (.opDXYN 0 1 1#4))).map
      (fun u => (u.pixel 0 0, u.getV 15)) = some (true, 0#8) := by decide
theorem witness_SkipOnKey : (v15.getV 0).toNat ≤ 15 ∧ 15 < (v16.getV 0).toNat := by decide
theorem witness_PollForKey :
    State.reset.keys = 0#16 ∧
    ((setKeys 0x0001#16 State.reset).keys.getLsbD (0 : Fin 16).val = true ∧
      ∀ j : Fin 16, 0 < j → (setKeys 0x0001#16 State.reset).keys.getLsbD j.val = false) ∧
    ((setKeys 0x8001#16 State.reset).keys.getLsbD (15 : Fin 16).val = true ∧
      ∀ j : Fin 16, 15 < j → (setKeys 0x8001#16 State.reset).keys.getLsbD j.val = false) := by decide
theorem witness_TimersCountDown :
    (ready 0).runState = .playing ∧ (ready 0).fault = none ∧ State.reset.runState ≠ .playing ∧
    ((ready 0).latch .fetchFault).fault ≠ none := by decide
theorem witness_RunStateTable : transact .resume State.reset = .next State.reset ∧ (Txn.pause = .pause) := ⟨rfl, rfl⟩
theorem witness_BootState : (List.replicate 3584 0#8).length ≤ 3584 := by rw [List.length_replicate]
theorem witness_LoadPlacesRom :
    State.reset.runState = .ready ∧ (List.replicate 3584 0#8).length ≤ 3584 ∧
    3584 < (List.replicate 3585 0#8).length ∧ (ready 0).runState ≠ .ready := by
  rw [List.length_replicate, List.length_replicate]; decide

end Sys2Proof.Tests
end

section
/-! PROOFS. The equations of the instructions that can fault, one per side of the row of R202, and what a step that does
not fault leaves in the latch. -/

namespace Sys2Proof.Machine

variable (s : State) (x y : Reg)

/-! ### The stack -/

theorem exec_op00EE_of_pos (h : 0 < s.sp.val) : exec .op00EE s = .next (s.drop.setPc (s.top h)) := dif_pos h

theorem exec_op00EE_of_empty (h : s.sp.val = 0) :
    exec .op00EE s = .next { s with fault := some .stackUnderflow } := dif_neg (by omega)

theorem exec_op2NNN_of_lt (nnn : Imm12) (h : s.sp.val < 16) :
    exec (.op2NNN nnn) s = .next ((s.push (s.pc + 2#16) h).setPc (imm16 nnn)) := dif_pos h

theorem exec_op2NNN_of_full (nnn : Imm12) (h : s.sp.val = 16) :
    exec (.op2NNN nnn) s = .next { s with fault := some .stackOverflow } := dif_neg (by omega)

/-! ### Accesses from I on -/

theorem exec_opDXYN_inside (n : Nibble) (h : n.toNat = 0 ∨ s.i.toNat + n.toNat - 1 ≤ 0xFFF) :
    exec (.opDXYN x y n) s =
      let d := drawSprite s (s.getV x).toNat (s.getV y).toNat n.toNat
      .next ((s.present d.frame).setFlag d.hit).advance :=
  withData_inside _ _ _ (by omega)

theorem exec_opDXYN_outside (n : Nibble) (h0 : n.toNat ≠ 0) (h : 0xFFF < s.i.toNat + n.toNat - 1) :
    exec (.opDXYN x y n) s = .next { s with fault := some .dataAddressFault } :=
  withData_outside _ _ _ (by omega) (by omega)

theorem exec_opFX33_inside (h : s.i.toNat + 2 ≤ 0xFFF) :
    exec (.opFX33 x) s = .next (s.storeBytes (s.dataAddr 0) (decimalDigits (s.getV x))).advance :=
  withData_inside _ _ _ (.inr h)

theorem exec_opFX33_outside (h : 0xFFF < s.i.toNat + 2) :
    exec (.opFX33 x) s = .next { s with fault := some .dataAddressFault } :=
  withData_outside _ _ _ (by omega) h

theorem exec_opFX55_inside (h : s.i.toNat + x.val ≤ 0xFFF) :
    exec (.opFX55 x) s = .next (s.storeBytes (s.dataAddr 0) (s.block x)).advance :=
  withData_inside _ _ _ (.inr h)

theorem exec_opFX55_outside (h : 0xFFF < s.i.toNat + x.val) :
    exec (.opFX55 x) s = .next { s with fault := some .dataAddressFault } :=
  withData_outside _ _ _ (by omega) h

theorem exec_opFX65_inside (h : s.i.toNat + x.val ≤ 0xFFF) :
    exec (.opFX65 x) s = .next (s.loadBlock x).advance :=
  withData_inside _ _ _ (.inr h)

theorem exec_opFX65_outside (h : 0xFFF < s.i.toNat + x.val) :
    exec (.opFX65 x) s = .next { s with fault := some .dataAddressFault } :=
  withData_outside _ _ _ (by omega) h

@[simp] theorem State.loadBlock_fault : (s.loadBlock x).fault = s.fault := by
  obtain ⟨v, hv, -⟩ := s.loadBlock_spec x
  rw [hv]

/-! ### Registers that hold a digit or a key number -/

theorem exec_opEX9E_of_key (h : (s.getV x).toNat ≤ 15) :
    exec (.opEX9E x) s = .next (s.skipIf (s.keyDown (s.getV x).toNat)) := by
  simp only [exec, execEX9E, s.digit?_of_le x h]

theorem exec_opEX9E_of_no_key (h : 15 < (s.getV x).toNat) :
    exec (.opEX9E x) s = .next { s with fault := some .keyIndexFault } := by
  simp only [exec, execEX9E, s.digit?_of_gt x h, raise_eq]

theorem exec_opEXA1_of_key (h : (s.getV x).toNat ≤ 15) :
    exec (.opEXA1 x) s = .next (s.skipIf (!s.keyDown (s.getV x).toNat)) := by
  simp only [exec, execEXA1, s.digit?_of_le x h]

theorem exec_opEXA1_of_no_key (h : 15 < (s.getV x).toNat) :
    exec (.opEXA1 x) s = .next { s with fault := some .keyIndexFault } := by
  simp only [exec, execEXA1, s.digit?_of_gt x h, raise_eq]

theorem exec_opFX29_of_digit (h : (s.getV x).toNat ≤ 15) :
    exec (.opFX29 x) s = .next (s.setI (glyphAddr ⟨(s.getV x).toNat, by omega⟩)).advance := by
  simp only [exec, execFX29, s.digit?_of_le x h]

theorem exec_opFX29_of_no_digit (h : 15 < (s.getV x).toNat) :
    exec (.opFX29 x) s = .next { s with fault := some .fontDigitFault } := by
  simp only [exec, execFX29, s.digit?_of_gt x h, raise_eq]

/-! ### FX0A -/

theorem exec_opFX0A_of_some (k : Fin 16) (h : s.scanKeys = some k) :
    exec (.opFX0A x) s = .next (s.setV x (BitVec.ofNat 8 k.val)).advance := by
  simp only [exec, execFX0A, h]

theorem exec_opFX0A_of_none (h : s.scanKeys = none) : exec (.opFX0A x) s = .next s := by
  simp only [exec, execFX0A, h]

end Sys2Proof.Machine

/-! ### Precise faults (R10, R201, R202) -/

namespace Sys2Proof.Safety

open Sys2Proof.Machine

/-- The result r of an instruction in state s honours the row o of R202: with a cause only the latch has changed, and
without one the latch is as it was. -/
def HonoursRow (o : Option FaultCause) (s : State) (r : Result) : Prop :=
  (∀ c, o = some c → r = .next { s with fault := some c }) ∧ (o = none → ∃ t, r = .next t ∧ t.fault = s.fault)

variable {s : State}

/-- An instruction with no row answers a next state with the latch as it was. -/
theorem HonoursRow.of_next {t : State} (h : t.fault = s.fault) : HonoursRow none s (.next t) :=
  ⟨fun _ hc => (nomatch hc), fun _ => ⟨t, rfl, h⟩⟩

/-- An instruction with a row is checked on each side of the row's condition. -/
theorem HonoursRow.of_ite {p : Prop} [Decidable p] {c : FaultCause} {r : Result}
    (hfault : p → r = .next { s with fault := some c })
    (hnext : ¬p → ∃ t, r = .next t ∧ t.fault = s.fault) :
    HonoursRow (if p then some c else none) s r := by
  by_cases hp : p
  · rw [if_pos hp, hfault hp]
    exact ⟨fun d hd => by rw [Option.some.inj hd], fun hn => nomatch hn⟩
  · obtain ⟨t, rfl, ht⟩ := hnext hp
    rw [if_neg hp]
    exact .of_next ht

theorem exec_honoursRow (i : Instr) (s : State) : HonoursRow (faultCondition i s) s (exec i s) := by
  cases i with
  | op00EE => exact .of_ite (exec_op00EE_of_empty s) fun h => ⟨_, exec_op00EE_of_pos s (by omega), rfl⟩
  | op2NNN nnn => exact .of_ite (exec_op2NNN_of_full s nnn) fun h => ⟨_, exec_op2NNN_of_lt s nnn (by omega), rfl⟩
  | opDXYN x y n =>
    exact .of_ite (fun h => exec_opDXYN_outside s x y n h.1 h.2)
      fun h => ⟨_, exec_opDXYN_inside s x y n (by omega), rfl⟩
  | opFX33 x => exact .of_ite (exec_opFX33_outside s x) fun h => ⟨_, exec_opFX33_inside s x (by omega), rfl⟩
  | opFX55 x => exact .of_ite (exec_opFX55_outside s x) fun h => ⟨_, exec_opFX55_inside s x (by omega), rfl⟩
  | opFX65 x =>
    exact .of_ite (exec_opFX65_outside s x) fun h => ⟨_, exec_opFX65_inside s x (by omega), s.loadBlock_fault x⟩
  | opEX9E x => exact .of_ite (exec_opEX9E_of_no_key s x) fun h => ⟨_, exec_opEX9E_of_key s x (by omega), rfl⟩
  | opEXA1 x => exact .of_ite (exec_opEXA1_of_no_key s x) fun h => ⟨_, exec_opEXA1_of_key s x (by omega), rfl⟩
  | opFX29 x => exact .of_ite (exec_opFX29_of_no_digit s x) fun h => ⟨_, exec_opFX29_of_digit s x (by omega), rfl⟩
  | opFX0A x =>
    cases h : s.scanKeys with
    | none =>
      rw [exec_opFX0A_of_none s x h]
      exact .of_next rfl
    | some k =>
      rw [exec_opFX0A_of_some s x k h]
      exact .of_next rfl
  -- No other instruction has a row, and each of them answers a next state in every state.
  | _ => exact .of_next rfl

/-- Settles O9: every instruction honours its row of R202, by cases on the instruction and on the row's condition. -/
theorem faultsArePrecise : Obligations.FaultsArePrecise := exec_honoursRow

end Sys2Proof.Safety
end

section
/-! PROOFS. What an instruction does where it does not fault, as one total function of the state, and its equation with
`exec`: every rule about all instructions is then a rule about this function and one about a latched fault. -/

namespace Sys2Proof.Machine

variable (s : State)

/-! ### Operands and the key scan -/

/-- NNN extended to 16 bits is its number. -/
theorem imm16_eq_ofNat (nnn : Imm12) : imm16 nnn = BitVec.ofNat 16 nnn.toNat := (BitVec.ofNat_toNat 16 nnn).symm

/-- V[r] extended to 16 bits is its number. -/
theorem State.getV16_eq_ofNat (r : Reg) : s.getV16 r = BitVec.ofNat 16 (s.getV r).toNat :=
  (BitVec.ofNat_toNat 16 (s.getV r)).symm

/-- FX0A's scan finds no key exactly if the whole vector is 0. -/
theorem State.scanKeys_eq_none_iff : s.scanKeys = none ↔ s.keys = 0#16 := by
  constructor
  · intro h
    apply BitVec.eq_of_getLsbD_eq
    intro k hk
    rw [BitVec.getLsbD_zero]
    exact s.scanKeys_none h k hk
  · intro hz
    cases h : s.scanKeys with
    | none => rfl
    | some k =>
      have hd : s.keys.getLsbD k.val = true := (s.scanKeys_some k h).1
      simp [hz] at hd

theorem State.getV_setV_of_ne {r q : Reg} (b : Byte) (h : q ≠ r) : (s.setV r b).getV q = s.getV q := by
  rw [State.getV_setV, if_neg h]

end Sys2Proof.Machine

namespace Sys2Proof.Safety

open Sys2Proof.Machine

/-! ### The effect of an instruction -/

/-- The bytes an instruction stores from I on, where it does not fault (R163, R164). -/
def storedBytes (i : Instr) (s : State) : List Byte :=
  match i with
  | .opFX33 x => decimalDigits (s.getV x)
  | .opFX55 x => s.block x
  | _ => []

/-- The registers FX0A leaves (R192). -/
def polledRegs (x : Reg) (s : State) : Vector Byte 16 :=
  match s.scanKeys with
  | some k => (s.setV x (BitVec.ofNat 8 k.val)).v
  | none => s.v

/-- The registers FX65 leaves, in closed form: up to X the bytes read, above X the old values (R165). Irreducible, so
that a `rfl` about another part of the state does not compute it. -/
@[irreducible] def loadedRegs (x : Reg) (old : Vector Byte 16) (bytes : Nat → Byte) : Vector Byte 16 :=
  Vector.ofFn fun r => if r ≤ x then bytes r.val else old[r]

theorem loadedRegs_getElem (x : Reg) (old : Vector Byte 16) (bytes : Nat → Byte) (r : Reg) :
    (loadedRegs x old bytes)[r] = if r ≤ x then bytes r.val else old[r] := by
  rw [loadedRegs, Fin.getElem_fin, Vector.getElem_ofFn]

/-- The state an instruction leaves where its row of R202 does not hold. The instructions that `exec` answers with a
test, a check or a scan are written out without one; the others answer the same way in every state, and their answer is
taken from `exec`. -/
def effect (i : Instr) (s : State) : State :=
  match i with
  | .op00EE => s.drop.setPc (pcAfter .op00EE s)
  | .op2NNN nnn =>
    { s with
      stk := s.stk.setIfInBounds s.sp.val (s.pc + 2#16)
      sp := Fin.ofNat 17 (s.sp.val + 1)
      pc := imm16 nnn }
  | .opDXYN x y n =>
    let d := drawSprite s (s.getV x).toNat (s.getV y).toNat n.toNat
    ((s.present d.frame).setFlag d.hit).advance
  | .opEX9E x => s.skipIf (s.keyDown (s.getV x).toNat)
  | .opEXA1 x => s.skipIf (!s.keyDown (s.getV x).toNat)
  | .opFX0A x => { s with v := polledRegs x s, pc := pcAfter (.opFX0A x) s }
  | .opFX29 x => (s.setI (BitVec.ofNat 16 (fontBase + Config.glyphHeight * (s.getV x).toNat))).advance
  | .opFX33 x => (s.storeBytes (s.dataAddr 0) (storedBytes (.opFX33 x) s)).advance
  | .opFX55 x => (s.storeBytes (s.dataAddr 0) (storedBytes (.opFX55 x) s)).advance
  | .opFX65 x => { s with v := loadedRegs x s.v fun k => s.readByte (s.i.toNat + k), pc := s.pc + 2#16 }
  | i =>
    match exec i s with
    | .next t => t
    | .fault _ | .refused _ => s

variable {i : Instr} {s t : State}

theorem loadBlock_eq_loadedRegs (x : Reg) (s : State) :
    s.loadBlock x = { s with v := loadedRegs x s.v fun k => s.readByte (s.i.toNat + k) } := by
  obtain ⟨v, hv, hr⟩ := s.loadBlock_spec x
  have hregs : loadedRegs x s.v (fun k => s.readByte (s.i.toNat + k)) = v :=
    Vector.ext fun k hk => (loadedRegs_getElem x s.v _ ⟨k, hk⟩).trans (hr ⟨k, hk⟩).symm
  rw [hv, hregs]

/-- Where the row of R202 does not hold, an instruction answers its effect. -/
theorem exec_eq_effect (h : faultCondition i s = none) : exec i s = .next (effect i s) := by
  cases i with
  | op00EE =>
    have hsp : s.sp.val ≠ 0 := by simpa [faultCondition] using h
    rw [exec_op00EE_of_pos s (by omega)]
    have htop : s.top (by omega) = pcAfter .op00EE s := by
      simp [State.top, pcAfter, List.getD, show s.sp.val - 1 < 16 by omega]
    rw [htop]
    rfl
  | op2NNN nnn =>
    have hsp : s.sp.val ≠ 16 := by simpa [faultCondition] using h
    have hlt : s.sp.val < 16 := by omega
    rw [exec_op2NNN_of_lt s nnn hlt]
    have hstk : s.stk.setIfInBounds s.sp.val (s.pc + 2#16) = s.stk.set s.sp.val (s.pc + 2#16) := by
      ext k hk
      rw [Vector.getElem_setIfInBounds, Vector.getElem_set]
    have hsucc : Fin.ofNat 17 (s.sp.val + 1) = ⟨s.sp.val + 1, by omega⟩ := Fin.ext (Nat.mod_eq_of_lt (by omega))
    rw [effect, hstk, hsucc]
    rfl
  | opDXYN x y n =>
    have hin : n.toNat ≠ 0 → s.i.toNat + n.toNat - 1 ≤ 0xFFF := by simpa [faultCondition] using h
    exact exec_opDXYN_inside s x y n (by omega)
  | opEX9E x => exact exec_opEX9E_of_key s x (by simpa [faultCondition] using h)
  | opEXA1 x => exact exec_opEXA1_of_key s x (by simpa [faultCondition] using h)
  | opFX0A x =>
    cases hk : s.scanKeys with
    | none =>
      have hz := s.scanKeys_eq_none_iff.mp hk
      rw [exec_opFX0A_of_none s x hk, effect, polledRegs, hk, pcAfter, if_pos hz]
    | some k =>
      have hz : s.keys ≠ 0#16 := fun hz => by simp [s.scanKeys_eq_none_iff.mpr hz] at hk
      rw [exec_opFX0A_of_some s x k hk, effect, polledRegs, hk, pcAfter, if_neg hz]
      rfl
  | opFX29 x => exact exec_opFX29_of_digit s x (by simpa [faultCondition] using h)
  | opFX33 x => exact exec_opFX33_inside s x (by simpa [faultCondition] using h)
  | opFX55 x => exact exec_opFX55_inside s x (by simpa [faultCondition] using h)
  | opFX65 x =>
    rw [exec_opFX65_inside s x (by simpa [faultCondition] using h), loadBlock_eq_loadedRegs]
    rfl
  | _ => rfl

/-- The two ways an instruction can end: its row of R202 holds and only the latch changes, or it leaves its effect. -/
theorem exec_cases (h : exec i s = .next t) :
    (∃ c, faultCondition i s = some c ∧ t = { s with fault := some c }) ∨
    (faultCondition i s = none ∧ t = effect i s) := by
  cases hc : faultCondition i s with
  | none =>
    rw [exec_eq_effect hc, Host.Outcome.next.injEq] at h
    exact .inr ⟨rfl, h.symm⟩
  | some c =>
    rw [(exec_honoursRow i s).1 c hc, Host.Outcome.next.injEq] at h
    exact .inl ⟨c, rfl, h.symm⟩

/-- Whether an instruction faults rests on the general registers, I and SP alone. -/
theorem faultCondition_congr (i : Instr) (hv : t.v = s.v) (hi : t.i = s.i) (hsp : t.sp = s.sp) :
    faultCondition i t = faultCondition i s := by
  have hg : ∀ r, t.getV r = s.getV r := fun r => by rw [State.getV, hv, State.getV]
  cases i <;> simp only [faultCondition, hg, hi, hsp]

end Sys2Proof.Safety
end

section
/-! PROOFS. The parts of an instruction's effect, one lemma a part, and from them the table of R25 (PcTable), the frames
(InstructionFrames) and the noninterference of R31 and R36 (UnobservableState, KeysAndDrawsReadWhere). -/

namespace Sys2Proof.Safety

open Sys2Proof.Machine

/-! ### The program counter (R25) -/

/-- A skip leaves the pc of the skip rows of R25. -/
theorem skipIf_pc_eq_skipPc (s : State) {b : Bool} {c : Prop} [Decidable c] (h : b = true ↔ c) :
    (s.skipIf b).pc = skipPc s c := by
  rw [State.skipIf_pc, skipPc]
  exact if_congr h rfl rfl

theorem effect_pc (i : Instr) (s : State) : (effect i s).pc = pcAfter i s := by
  cases i with
  | op1NNN nnn | op2NNN nnn => exact imm16_eq_ofNat nnn
  | op3XNN x nn | op4XNN x nn => exact skipIf_pc_eq_skipPc s (by simp)
  | op5XY0 x y | op9XY0 x y => exact skipIf_pc_eq_skipPc s (by simp)
  | opEX9E x | opEXA1 x => exact skipIf_pc_eq_skipPc s (by simp)
  | opBNNN nnn =>
    calc (effect (.opBNNN nnn) s).pc = s.getV16 0 + imm16 nnn := rfl
      _ = pcAfter (.opBNNN nnn) s := by rw [s.getV16_eq_ofNat, imm16_eq_ofNat, pcAfter, BitVec.ofNat_add]
  | _ => rfl

/-- Settles O17: an instruction leaves pc at its row of R25, and a fault, which changes the latch alone, leaves it. -/
theorem pcTable : Obligations.PcTable := by
  intro i s t h
  rcases exec_cases h with ⟨c, hc, rfl⟩ | ⟨hc, rfl⟩
  · rw [if_neg (by simp [hc])]
  · rw [if_pos hc, effect_pc]

/-! ### General registers and memory -/

/-- The registers an instruction's effect leaves alone (R22). -/
theorem effect_getV {i : Instr} {r : Reg} (s : State) (h : r ∉ writesRegs i) : (effect i s).getV r = s.getV r := by
  cases i with
  | op6XNN x _ | op7XNN x _ | op8XY0 x _ | op8XY1 x _ | op8XY2 x _ | op8XY3 x _ | opCXNN x _ | opFX07 x =>
    exact s.getV_setV_of_ne _ (List.ne_of_not_mem_cons h)
  | op8XY4 x _ =>
    obtain ⟨hx, hf⟩ : r ≠ x ∧ r ≠ VF := by simpa [writesRegs] using h
    exact (State.getV_setV_of_ne _ _ hf).trans (s.getV_setV_of_ne _ hx)
  | op8XY5 x _ | op8XY6 x _ | op8XY7 x _ | op8XYE x _ =>
    obtain ⟨hx, hf⟩ : r ≠ x ∧ r ≠ VF := by simpa [writesRegs] using h
    exact (State.getV_setV_of_ne _ _ hx).trans (s.getV_setV_of_ne _ hf)
  | opDXYN => exact s.getV_setV_of_ne _ (List.ne_of_not_mem_cons h)
  | opFX0A x =>
    have hx : r ≠ x := List.ne_of_not_mem_cons h
    show (polledRegs x s)[r] = s.getV r
    rw [polledRegs]
    split
    · exact s.getV_setV_of_ne _ hx
    · rfl
  | opFX65 x =>
    have hx : ¬r ≤ x := by simpa [writesRegs] using h
    exact (loadedRegs_getElem x s.v _ r).trans (if_neg hx)
  | _ => rfl

/-- Memory after an instruction: the stored bytes stand from I on (R69). -/
theorem effect_mem (i : Instr) (s : State) :
    (effect i s).mem = s.mem.writeBytes (s.dataAddr 0) (storedBytes i s) := by
  cases i <;> rfl

theorem storedBytes_length (i : Instr) (s : State) : (storedBytes i s).length = storesBytes i := by
  cases i with
  | opFX55 x => exact s.block_length x
  | _ => rfl

/-- The bytes an instruction's effect leaves alone (R69). -/
theorem effect_keepsBytes (i : Instr) (s : State) : KeepsBytesBut (s.dataAddr 0) (storesBytes i) s (effect i s) := by
  intro k hk
  have hlen := storedBytes_length i s
  rw [State.readByte, effect_mem, Memory.read_writeBytes, dif_neg (by omega)]
  rfl

/-- An instruction without memory among its parts stores no byte. -/
theorem storesBytes_eq_zero {i : Instr} (h : .memory ∉ writesParts i) : storesBytes i = 0 := by
  cases i with
  | opFX33 x | opFX55 x => exact absurd (.head _) h
  | _ => rfl

/-! ### The other parts -/

/-- The parts an instruction's effect leaves alone, by cases on the part and, in each, on the instructions that write
it. -/
theorem effect_keepsBut (i : Instr) (s : State) : KeepsBut (.pc :: writesParts i) s (effect i s) := by
  intro p hp
  obtain ⟨hpc, hw⟩ : p ≠ .pc ∧ p ∉ writesParts i := by simpa using hp
  cases p with
  | pc => exact absurd rfl hpc
  | memory => exact fun a => effect_keepsBytes i s a (by rw [storesBytes_eq_zero hw]; omega)
  | index =>
    cases i with
    | opANNN | opFX1E | opFX29 => exact absurd (.head _) hw
    | _ => rfl
  | stack =>
    cases i with
    | op00EE | op2NNN => exact absurd (.head _) hw
    | _ => exact ⟨rfl, fun _ => rfl⟩
  | delay =>
    cases i with
    | opFX15 => exact absurd (.head _) hw
    | _ => rfl
  | sound =>
    cases i with
    | opFX18 => exact absurd (.head _) hw
    | _ => rfl
  | pixels =>
    cases i with
    | op00E0 | opDXYN => exact absurd (.head _) hw
    | _ => exact fun _ _ => rfl
  | redraw =>
    cases i with
    | op00E0 | opDXYN => exact absurd (.tail _ (.head _)) hw
    | _ => rfl
  | draws =>
    cases i with
    | opCXNN => exact absurd (.head _) hw
    | _ => rfl
  | keys | runState | fault => cases i <;> rfl

/-- Latching a fault changes no part but the latch. -/
theorem keepsBut_latch (w : List Part) (s : State) (c : FaultCause) :
    KeepsBut (.pc :: .fault :: w) s { s with fault := some c } := by
  intro p hp
  cases p with
  | fault => simp at hp
  | stack => exact ⟨rfl, fun _ => rfl⟩
  | memory => exact fun _ => rfl
  | pixels => exact fun _ _ => rfl
  | _ => rfl

/-- Settles O16: a fault changes the latch alone, and the effect of an instruction is framed part by part. -/
theorem instructionFrames : Obligations.InstructionFrames := by
  intro i s t h
  rcases exec_cases h with ⟨c, -, rfl⟩ | ⟨-, rfl⟩
  · exact ⟨fun _ _ => rfl, keepsBut_latch _ s c, fun _ _ => rfl⟩
  · refine ⟨fun r hr => effect_getV s hr, fun p hp => effect_keepsBut i s p ?_, effect_keepsBytes i s⟩
    simp only [List.mem_cons, not_or] at hp ⊢
    exact ⟨hp.1, hp.2.2⟩

/-! ### Noninterference (R31, R36) -/

/-- Settles O19: ST, redraw, the run state and the latch stand in no condition of R202, and in no other part of an
instruction's effect. -/
theorem unobservableState : Obligations.UnobservableState := by
  intro i s t a b r f h
  have hc : faultCondition i { s with st := a, redraw := b, runState := r, fault := f } = faultCondition i s :=
    faultCondition_congr i rfl rfl rfl
  rcases exec_cases h with ⟨c, hf, rfl⟩ | ⟨hf, rfl⟩
  · exact ⟨_, (exec_honoursRow i _).1 c (hc.trans hf), rfl, rfl, rfl, rfl, rfl, rfl, rfl, rfl, rfl, rfl⟩
  · refine ⟨_, exec_eq_effect (hc.trans hf), ?_⟩
    cases i <;> exact ⟨rfl, rfl, rfl, rfl, rfl, rfl, rfl, rfl, rfl, rfl⟩

/-- The effect of an instruction other than EX9E, EXA1 and FX0A does not depend on the keypad (R31). -/
theorem effect_withKeys {i : Instr} (s : State) (k : Word)
    (h : ∀ x, i ≠ .opEX9E x ∧ i ≠ .opEXA1 x ∧ i ≠ .opFX0A x) :
    effect i { s with keys := k } = { effect i s with keys := k } := by
  cases i with
  | opEX9E x => exact absurd rfl (h x).1
  | opEXA1 x => exact absurd rfl (h x).2.1
  | opFX0A x => exact absurd rfl (h x).2.2
  | _ => rfl

/-- The effect of an instruction other than CXNN does not depend on the count of draws (log 3). -/
theorem effect_withDraws {i : Instr} (s : State) (d : Nat) (h : ∀ x nn, i ≠ .opCXNN x nn) :
    effect i { s with draws := d } = { effect i s with draws := d } := by
  cases i with
  | opCXNN x nn => exact absurd rfl (h x nn)
  | _ => rfl

/-- Settles O20: the keypad and the count of draws stand in no condition of R202, and in no effect but those named. -/
theorem keysAndDrawsReadWhere : Obligations.KeysAndDrawsReadWhere := by
  intro i s t h
  have hk (k : Word) : faultCondition i { s with keys := k } = faultCondition i s := faultCondition_congr i rfl rfl rfl
  have hd (d : Nat) : faultCondition i { s with draws := d } = faultCondition i s := faultCondition_congr i rfl rfl rfl
  rcases exec_cases h with ⟨c, hf, rfl⟩ | ⟨hf, rfl⟩
  · exact ⟨fun k _ => (exec_honoursRow i _).1 c ((hk k).trans hf),
      fun d _ => (exec_honoursRow i _).1 c ((hd d).trans hf)⟩
  · exact ⟨fun k hi => by rw [exec_eq_effect ((hk k).trans hf), effect_withKeys s k hi],
      fun d hi => by rw [exec_eq_effect ((hd d).trans hf), effect_withDraws s d hi]⟩

end Sys2Proof.Safety
end

section
/-! PROOFS. The invariant of R38 under every transaction (StepKeepsInvariant, HostKeepsInvariant, ResetMeetsInvariant),
and the states `init` and a load leave (ResetIsInit, BootState). -/

namespace Sys2Proof.Machine

/-! ### Stored bytes read back -/

theorem State.readByte_storeBytes_inside (s : State) (a : Nat) (bs : List Byte) (k : Nat) (h : k < bs.length) :
    (s.storeBytes a bs).readByte (a + k) = bs[k] := by
  rw [State.readByte_storeBytes, dif_pos ⟨by omega, by omega⟩]
  simp

theorem State.readByte_storeBytes_outside (s : State) (a : Nat) (bs : List Byte) (k : Nat)
    (h : ¬(a ≤ k ∧ k < a + bs.length)) : (s.storeBytes a bs).readByte k = s.readByte k := by
  rw [State.readByte_storeBytes, dif_neg (by omega)]

end Sys2Proof.Machine

namespace Sys2Proof.Safety

open Sys2Proof.Machine

variable {s : State}

/-! ### The invariant under an instruction -/

/-- What 00EE reads is within the bound of a return address at every index, the default 0 too. -/
theorem stk_getD_le (hs : StateInv s) (k : Nat) : (s.stk.toList.getD k 0#16).toNat ≤ 0x1000 := by
  obtain ⟨-, -, hstk⟩ := hs
  by_cases hk : k < 16
  · simpa [List.getD, hk] using hstk ⟨k, hk⟩
  · simp [List.getD, show 16 ≤ k by omega]

theorem skipPc_le (c : Prop) [Decidable c] (hpc : s.pc.toNat ≤ 0x0FFE) : (skipPc s c).toNat ≤ 0x10FE := by
  unfold skipPc
  split <;> bv_omega

/-- From a pc a fetch can use, every row of R25 gives a pc of at most 0x10FE; BNNN reaches it (R38, R128). -/
theorem pcAfter_le (i : Instr) (hs : StateInv s) (hpc : s.pc.toNat ≤ 0x0FFE) : (pcAfter i s).toNat ≤ 0x10FE := by
  have hnext : (s.pc + 2#16).toNat ≤ 0x10FE := by bv_omega
  cases i with
  | op00EE => exact (stk_getD_le hs _).trans (by decide)
  | op1NNN nnn | op2NNN nnn =>
    rw [pcAfter, BitVec.toNat_ofNat]
    omega
  | op3XNN | op4XNN | op5XY0 | op9XY0 | opEX9E | opEXA1 => exact skipPc_le _ hpc
  | opBNNN nnn =>
    rw [pcAfter, BitVec.toNat_ofNat]
    omega
  | opFX0A x =>
    rw [pcAfter]
    split
    · omega
    · exact hnext
  | _ => exact hnext

/-- The stack after an instruction: only a call changes it, by its return address in one entry (R27, R123). -/
theorem effect_stk (i : Instr) (s : State) :
    (effect i s).stk = s.stk ∨ (effect i s).stk = s.stk.setIfInBounds s.sp.val (s.pc + 2#16) := by
  cases i with
  | op2NNN => exact .inr rfl
  | _ => exact .inl rfl

/-- The bytes an instruction stores lie inside memory where it does not fault (R63). -/
theorem storedBytes_inside {i : Instr} (hc : faultCondition i s = none) (h : storesBytes i ≠ 0) :
    s.dataAddr 0 + (storedBytes i s).length ≤ Config.memSize := by
  have hmem : Config.memSize = 4096 := rfl
  rw [storedBytes_length, hmem, State.dataAddr]
  cases i with
  | opFX33 x =>
    have hin : s.i.toNat + 2 ≤ 0xFFF := by simpa [faultCondition] using hc
    rw [storesBytes]
    omega
  | opFX55 x =>
    have hin : s.i.toNat + x.val ≤ 0xFFF := by simpa [faultCondition] using hc
    rw [storesBytes]
    omega
  | _ => exact absurd rfl h

/-- What an instruction stores where it does not fault leaves memory in canonical form (log 18). -/
theorem effect_mem_wf {i : Instr} (hm : s.mem.wf) (hc : faultCondition i s = none) : (effect i s).mem.wf := by
  rw [effect_mem]
  by_cases h : storesBytes i = 0
  · rw [List.eq_nil_of_length_eq_zero ((storedBytes_length i s).trans h)]
    exact hm
  · exact Memory.wf_writeBytes _ _ _ hm (storedBytes_inside hc h)

theorem effect_inv {i : Instr} (hs : StateInv s) (hpc : s.pc.toNat ≤ 0x0FFE) (hc : faultCondition i s = none) :
    StateInv (effect i s) := by
  have ⟨hm, _, hstk⟩ := hs
  refine ⟨effect_mem_wf hm hc, by rw [effect_pc]; exact pcAfter_le i hs hpc, fun k => ?_⟩
  rcases effect_stk i s with h | h <;> rw [h]
  · exact hstk k
  · rw [Fin.getElem_fin, Vector.getElem_setIfInBounds]
    split
    · bv_omega
    · exact hstk k

/-- Settles O12: an Idle step and a fault leave memory, pc and stack, and an instruction runs only from a pc of at most
0x0FFE, from where its effect keeps the invariant. -/
theorem stepKeepsInvariant : Obligations.StepKeepsInvariant := by
  intro s t hs h
  rcases step_cases s with ⟨-, hstep⟩ | ⟨-, -, hstep⟩ | ⟨-, hfetch, hstep⟩ <;> rw [hstep] at h
  · cases h
    exact hs
  · cases h
    exact hs
  · rcases exec_cases h with ⟨c, -, rfl⟩ | ⟨hc, rfl⟩
    · exact hs
    · exact effect_inv hs (s.canFetch_iff.mp hfetch) hc

/-! ### The other transactions -/

/-- Settles O14: reset lists no memory, and its pc and stack are 0. -/
theorem resetMeetsInvariant : Obligations.ResetMeetsInvariant :=
  ⟨State.reset_mem_wf, by decide, by decide⟩

/-- Settles O52: `init` is the reset state with the count of draws kept, by definition. -/
theorem resetIsInit : Obligations.ResetIsInit := fun _ => rfl

theorem loadResult_eq_loaded_iff {rom : List Byte} :
    loadResult rom s = .loaded ↔ s.runState = .ready ∧ rom.length ≤ 3584 := by
  have hmax : Config.maxRom = 3584 := rfl
  unfold loadResult
  split
  · next hr => exact ⟨fun h => (nomatch h), fun h => absurd h.1 hr⟩
  · next hr =>
    split
    · next hlong => exact ⟨fun h => (nomatch h), fun h => absurd h.2 (by omega)⟩
    · next hlen => exact ⟨fun _ => ⟨not_not.mp hr, by omega⟩, fun _ => rfl⟩

/-- What a load that succeeds leaves: the ROM from 0x200 on, pc there, and Playing (R244). -/
theorem loadRom_of_fits {rom : List Byte} (hr : s.runState = .ready) (hlen : rom.length ≤ 3584) :
    loadRom rom s = { s.storeBytes 0x200 rom with pc := 0x200#16, runState := .playing } := by
  rw [loadRom, loadResult_eq_loaded_iff.mpr ⟨hr, hlen⟩]
  rfl

/-- A load that fails leaves the state as it is (R244). -/
theorem loadRom_of_not_fits {rom : List Byte} (h : ¬(s.runState = .ready ∧ rom.length ≤ 3584)) :
    loadRom rom s = s := by
  unfold loadRom
  cases hres : loadResult rom s with
  | loaded => exact absurd (loadResult_eq_loaded_iff.mp hres) h
  | romTooLarge | loadRefused => rfl

theorem loadRom_inv (rom : List Byte) (hs : StateInv s) : StateInv (loadRom rom s) := by
  by_cases h : s.runState = .ready ∧ rom.length ≤ 3584
  · obtain ⟨hm, -, hstk⟩ := hs
    obtain ⟨hr, hlen⟩ := h
    rw [loadRom_of_fits hr hlen]
    have hmem : Config.memSize = 4096 := rfl
    exact ⟨Memory.wf_writeBytes _ _ _ hm (by omega), by simp, hstk⟩
  · rw [loadRom_of_not_fits h]
    exact hs

/-- Settles O13: only `init` and `load` touch memory, pc or stack. -/
theorem hostKeepsInvariant : Obligations.HostKeepsInvariant := by
  intro tx s t htx hs h
  cases tx with
  | step => exact absurd rfl htx
  | init =>
    cases h
    exact resetMeetsInvariant
  | load rom =>
    cases h
    exact loadRom_inv rom hs
  | tickTimers =>
    cases h
    unfold tickTimers
    split <;> exact hs
  | pause =>
    cases h
    unfold pause
    split <;> exact hs
  | resume =>
    cases h
    unfold resume
    split <;> exact hs
  | setKeys | quit | frameConsumed =>
    cases h
    exact hs

/-! ### The state a program starts in -/

/-- Outside the font memory is 0 at reset (R37, R62). -/
theorem background_outside_font {a : Nat} (h : ¬(fontBase ≤ a ∧ a < fontBase + Config.fontSize)) :
    background a = 0#8 := by
  rw [background, if_neg h, ite_self]

/-- Settles O53: the load finds the reset state with its keys set, so what it does not write is as after `init`. -/
theorem bootState : Obligations.BootState := by
  intro s k rom hlen
  refine ⟨initialise s, setKeys k (initialise s), _, rfl, rfl, rfl, ?_⟩
  have hfont : Config.fontBase.val < 0x200 - 80 + 1 := Config.fontBase.isLt
  have hrest : ∀ a, ¬(0x200 ≤ a ∧ a < 0x200 + rom.length) →
      ((setKeys k (initialise s)).storeBytes 0x200 rom).readByte a = background a :=
    fun a ha => State.readByte_storeBytes_outside _ _ _ _ ha
  rw [loadRom_of_fits rfl hlen]
  refine ⟨fun q => ?_, rfl, rfl, rfl, rfl, rfl, fun y x => Frame.pixel_clear y x, rfl, rfl, rfl, rfl, fun j hj => ?_,
    State.readByte_storeBytes_inside _ _ _, fun a hf hr => ?_⟩
  · exact Vector.getElem_replicate q.isLt
  · exact (hrest _ (by omega)).trans (background_font j hj)
  · exact (hrest a hr).trans (background_outside_font hf)

end Sys2Proof.Safety
end

section
/-! PROOFS. A sprite in closed form (R181), and what the flag writers leave in VF (FlagWriters). -/

namespace Sys2Proof.Machine

/-! ### Drawing -/

/-- A drawing that has turned over, in the frame f, exactly the pixels of `bits`, each once: the hit says whether one of
them was on. -/
structure Drawing.Inverts (f : Frame) (bits : Fin 32 → Fin 64 → Bool) (d : Drawing) : Prop where
  pixel : ∀ v u, d.frame.pixel v u = (f.pixel v u ^^ bits v u)
  hit : d.hit = true ↔ ∃ v u, f.pixel v u = true ∧ bits v u = true

/-- The bits of one sprite row b in row y from column x0 on, as far as its first m columns (R181). -/
def rowBit (y x0 m : Nat) (b : Byte) (v : Fin 32) (u : Fin 64) : Bool :=
  decide (v.val = y ∧ x0 ≤ u.val ∧ u.val < x0 + m) && b.getLsbD (7 - (u.val - x0))

variable {f : Frame} {bits : Fin 32 → Fin 64 → Bool} {d : Drawing}

theorem Drawing.Inverts.start (f : Frame) : Inverts f (fun _ _ => false) { frame := f, hit := false } :=
  ⟨fun v u => by simp, by simp⟩

theorem Drawing.Inverts.congr {bits' : Fin 32 → Fin 64 → Bool} (h : Inverts f bits d)
    (hb : ∀ v u, bits' v u = bits v u) : Inverts f bits' d := by
  rw [show bits' = bits from funext fun v => funext (hb v)]
  exact h

/-- Turning over a pixel not turned over yet adds it to the bits. -/
theorem Drawing.Inverts.toggle (h : Inverts f bits d) (y : Fin 32) (x : Fin 64) (hnew : bits y x = false) :
    Inverts f (fun v u => bits v u || decide (v = y ∧ u = x))
      { frame := d.frame.toggle y x, hit := d.hit || d.frame.pixel y x } := by
  have hold : d.frame.pixel y x = f.pixel y x := by rw [h.pixel, hnew, Bool.xor_false]
  constructor
  · intro v u
    rw [Frame.pixel_toggle]
    by_cases hvu : v = y ∧ u = x
    · obtain ⟨rfl, rfl⟩ := hvu
      simp [hold]
    · simp [hvu, h.pixel]
  · rw [Bool.or_eq_true, h.hit, hold]
    constructor
    · rintro (⟨v, u, hf, hb⟩ | hf)
      · exact ⟨v, u, hf, by simp [hb]⟩
      · exact ⟨y, x, hf, by simp⟩
    · rintro ⟨v, u, hf, hb⟩
      by_cases hvu : v = y ∧ u = x
      · obtain ⟨rfl, rfl⟩ := hvu
        exact .inr hf
      · exact .inl ⟨v, u, hf, by simpa [hvu] using hb⟩

/-- Plotting a bit at a pixel not turned over yet adds it to the bits; outside the frame there is no such pixel. -/
theorem Drawing.Inverts.plot (h : Inverts f bits d) (y x : Nat) (bit : Bool)
    (hnew : ∀ v u, v.val = y → u.val = x → bits v u = false) :
    Inverts f (fun v u => bits v u || (decide (v.val = y ∧ u.val = x) && bit)) (Machine.plot y x bit d) := by
  unfold Machine.plot
  split
  · next hin =>
    obtain ⟨rfl, hx, hy⟩ := hin
    exact (h.toggle ⟨y, by omega⟩ ⟨x, by omega⟩ (hnew _ _ rfl rfl)).congr fun v u => by simp [Fin.ext_iff]
  · next hout =>
    refine h.congr fun v u => ?_
    have hnone : v.val = y → u.val = x → bit = true → bits v u = true :=
      fun hv hu hbit => absurd ⟨hbit, by omega, by omega⟩ hout
    simpa using hnone

/-- The first m + 1 columns of a row are its first m and the one after. -/
theorem rowBit_succ (y x0 m : Nat) (b : Byte) (v : Fin 32) (u : Fin 64) :
    rowBit y x0 (m + 1) b v u =
      (rowBit y x0 m b v u || (decide (v.val = y ∧ u.val = x0 + m) && b.getLsbD (7 - m))) := by
  unfold rowBit
  by_cases hu : u.val = x0 + m
  · simp [hu]
  · have hlt : u.val < x0 + (m + 1) ↔ u.val < x0 + m := by omega
    simp [hu, hlt]

/-- Plotting the first m columns of a row with no pixel turned over yet adds their bits. -/
theorem Drawing.Inverts.columns (h : Inverts f bits d) (y x0 : Nat) (b : Byte)
    (hnew : ∀ v u, v.val = y → bits v u = false) (m : Nat) :
    Inverts f (fun v u => bits v u || rowBit y x0 m b v u)
      ((List.range m).foldl (fun e c => Machine.plot y (x0 + c) (b.getLsbD (7 - c)) e) d) := by
  induction m with
  | zero => exact h.congr fun v u => by simp [rowBit]
  | succ m ih =>
    rw [List.range_succ, List.foldl_append]
    have hplot := ih.plot y (x0 + m) (b.getLsbD (7 - m)) fun v u hv hu => by simp [hnew v u hv, rowBit, hu]
    exact hplot.congr fun v u => by rw [rowBit_succ, Bool.or_assoc]

end Sys2Proof.Machine

namespace Sys2Proof.Safety

open Sys2Proof.Machine

/-- A sprite of one row more has the bits of its last row as well. -/
theorem spriteBit_succ (s : State) (x0 y0 n : Nat) (v : Fin 32) (u : Fin 64) :
    spriteBit s x0 y0 (n + 1) v u =
      (spriteBit s x0 y0 n v u || rowBit (y0 + n) x0 8 (s.readByte (s.dataAddr n)) v u) := by
  unfold spriteBit rowBit
  by_cases hv : v.val = y0 + n
  · simp [hv, State.dataAddr]
  · have hlt : v.val < y0 + (n + 1) ↔ v.val < y0 + n := by omega
    simp [hv, hlt]

/-- Drawing a sprite turns over exactly its pixels, and hits exactly if one of them was on (R181). -/
theorem drawSprite_inverts (s : State) (x0 y0 n : Nat) :
    (drawSprite s x0 y0 n).Inverts s.fb (spriteBit s x0 y0 n) := by
  unfold drawSprite
  induction n with
  | zero => exact (Drawing.Inverts.start s.fb).congr fun v u => by simp [spriteBit]
  | succ n ih =>
    rw [List.range_succ, List.foldl_append]
    have hrow := ih.columns (y0 + n) x0 (s.readByte (s.dataAddr n))
      (fun v u hv => by simp [spriteBit, hv]) 8
    exact hrow.congr (spriteBit_succ s x0 y0 n)

/-- A drawing hits exactly if some pixel goes from on to off. -/
theorem drawSprite_hit_iff (s : State) (x0 y0 n : Nat) :
    (drawSprite s x0 y0 n).hit = true ↔
      ∃ v u, s.pixel v u = true ∧ (drawSprite s x0 y0 n).frame.pixel v u = false := by
  have h := drawSprite_inverts s x0 y0 n
  rw [h.hit]
  refine exists_congr fun v => exists_congr fun u => and_congr_right fun hon => ?_
  rw [h.pixel, hon, Bool.true_xor, Bool.not_eq_false']

/-! ### Flags -/

theorem flag_decide (p : Prop) [Decidable p] : flag (decide p) = if p then 1#8 else 0#8 := by
  simp [flag]

theorem flag_toNat (c : Bool) : (flag c).toNat = c.toNat := by
  cases c <;> rfl

theorem lowBit_toNat (a : Byte) : (lowBit a).toNat = a.toNat % 2 := by
  rw [lowBit, BitVec.getLsbD, Nat.toNat_testBit]
  simp

theorem highBit_toNat (a : Byte) : (highBit a).toNat = a.toNat / 128 := by
  rw [highBit, BitVec.getLsbD, Nat.toNat_testBit]
  omega

theorem getV_VF_setFlag (s : State) (c : Bool) : (s.setFlag c).getV 15 = flag c :=
  (State.getV_setFlag s 15 c).trans (if_pos rfl)

/-- A flag written before the destination stays where the destination is another register (R22). -/
theorem getV_VF_setFlag_setV (s : State) {x : Reg} (hx : x ≠ 15) (c : Bool) (b : Byte) :
    ((s.setFlag c).setV x b).getV 15 = flag c := by
  rw [State.getV_setV_of_ne _ _ hx.symm, getV_VF_setFlag]

/-- The instructions that may write VF: the six flag writers, and those whose destination includes it (R22). -/
theorem writes_VF {i : Instr} (h : 15 ∈ writesRegs i) :
    (∃ x y, i = .op8XY4 x y ∨ i = .op8XY5 x y ∨ i = .op8XY6 x y ∨ i = .op8XY7 x y ∨ i = .op8XYE x y) ∨
    (∃ x y n, i = .opDXYN x y n) ∨ (∃ nn, i = .op6XNN 15 nn ∨ i = .op7XNN 15 nn ∨ i = .opCXNN 15 nn) ∨
    (∃ y, i = .op8XY0 15 y ∨ i = .op8XY1 15 y ∨ i = .op8XY2 15 y ∨ i = .op8XY3 15 y) ∨
    i = .opFX07 15 ∨ i = .opFX0A 15 ∨ i = .opFX65 15 := by
  cases i with
  | op8XY4 | op8XY5 | op8XY6 | op8XY7 | op8XYE | opDXYN => simp
  | op6XNN x _ | op7XNN x _ | opCXNN x _ | op8XY0 x _ | op8XY1 x _ | op8XY2 x _ | op8XY3 x _ | opFX07 x | opFX0A x =>
    obtain rfl : 15 = x := List.mem_singleton.mp h
    simp
  | opFX65 x =>
    have hle : 15 ≤ x := by simpa [writesRegs] using h
    obtain rfl : 15 = x := le_antisymm hle x.le_last
    simp
  | _ => exact nomatch h

/-- A draw leaves in VF whether some pixel went from on to off (R181). -/
theorem effect_opDXYN_VF (x y : Reg) (n : Nibble) (s : State) :
    (effect (.opDXYN x y n) s).getV 15 =
      flag (decide (∃ v u, s.pixel v u = true ∧ (effect (.opDXYN x y n) s).pixel v u = false)) := by
  have hhit := drawSprite_hit_iff s (s.getV x).toNat (s.getV y).toNat n.toNat
  exact (getV_VF_setFlag _ _).trans (congrArg flag (Bool.eq_iff_iff.mpr (hhit.trans decide_eq_true_iff.symm)))

/-- Settles O18: the arithmetic flag writers by their formulas, DXYN by the closed form of its sprite, and every other
instruction by its frame. -/
theorem flagWriters : Obligations.FlagWriters := by
  refine ⟨fun x y s hx => ?_, fun x y n s hc => ?_, fun i s t h hne => ?_⟩
  · refine ⟨⟨_, rfl, ?add⟩, ⟨_, rfl, ?sub⟩, ⟨_, rfl, ?shiftRight⟩, ⟨_, rfl, ?subFrom⟩, ⟨_, rfl, ?shiftLeft⟩⟩
    case add => exact (getV_VF_setFlag _ _).trans (flag_decide _)
    case sub | subFrom => exact (getV_VF_setFlag_setV s hx _ _).trans (flag_decide _)
    case shiftRight => rw [State.getV_advance, getV_VF_setFlag_setV s hx, flag_toNat, lowBit_toNat]
    case shiftLeft => rw [State.getV_advance, getV_VF_setFlag_setV s hx, flag_toNat, highBit_toNat]
  · refine ⟨_, exec_eq_effect hc, ?_⟩
    rw [effect_opDXYN_VF, flag_decide]
    exact ⟨fun h => if_pos h, fun h => if_neg h⟩
  · refine writes_VF (not_not.mp fun hr => hne ?_)
    obtain ⟨hregs, -, -⟩ := instructionFrames i s t h
    exact hregs 15 hr

end Sys2Proof.Safety
end

section
/-! PROOFS. The step as fetch, decode and execute (StepRunsDecodedInstruction), and the block FX55 stores as later reads
and fetches see it (StoreSeenByNextFetch). -/

namespace Sys2Proof.Machine

variable {s : State}

/-! ### Fetch (R67, R206) -/

/-- Where `step` acts and the bytes at pc are inside memory, it executes the word fetched (R206). -/
theorem step_eq_exec_decode_fetch (hrun : s.runState = .playing) (hfault : s.fault = none)
    (hpc : s.pc.toNat ≤ 0x0FFE) : step s = exec (decode s.fetch) s := by
  rw [step, if_pos (s.admitted_iff.mpr ⟨hrun, hfault⟩), if_pos (s.canFetch_iff.mpr hpc)]

/-- The two bytes at pc hold the instruction of the word fetched, and no byte is left over (R67, R91). -/
theorem decodeBytes_at_pc (s : State) :
    decodeBytes [s.readByte s.pc.toNat, s.readByte (s.pc.toNat + 1)] = .ok (decode s.fetch, []) := rfl

/-! ### The block of FX55 (R164) -/

/-- Once the block V0 to VX stands in memory from I on, the byte at I + r is V[r]. -/
theorem State.readByte_storeBytes_block (s : State) {x r : Reg} (hr : r ≤ x) :
    (s.storeBytes (s.dataAddr 0) (s.block x)).readByte (s.i.toNat + r.val) = s.getV r := by
  have hlt : r.val < (s.block x).length := by
    rw [s.block_length x]
    exact Nat.lt_succ_of_le hr
  calc (s.storeBytes (s.dataAddr 0) (s.block x)).readByte (s.i.toNat + r.val)
      = (s.block x)[r.val] := s.readByte_storeBytes_inside (s.dataAddr 0) (s.block x) r.val hlt
    _ = s.getV r := by rw [s.block_getElem x r.val hlt, Fin.ofNat_val_eq_self]

end Sys2Proof.Machine

namespace Sys2Proof.Safety

open Sys2Proof.Machine

/-- Settles O7: the instruction the two bytes decode to is that of the fetched word, which is what the step executes. -/
theorem stepRunsDecodedInstruction : Obligations.StepRunsDecodedInstruction := by
  intro s i hrun hfault hpc hdec
  obtain rfl : decode s.fetch = i := by simpa [decodeBytes_at_pc] using hdec
  exact step_eq_exec_decode_fetch hrun hfault hpc

/-- Settles O42: the fetch after FX55 reads the bytes at I + j and I + j + 1, which are V[j] and V[j + 1] of the stored
block. -/
theorem storeSeenByNextFetch : Obligations.StoreSeenByNextFetch := by
  intro x j k s t h hin hkx hjk hpc
  rw [exec_opFX55_inside s x hin, Host.Outcome.next.injEq] at h
  have hbyte (r : Reg) (hr : r ≤ x) : t.readByte (s.i.toNat + r.val) = s.getV r := by
    rw [← h, State.readByte_advance, s.readByte_storeBytes_block hr]
  have htpc : t.pc = s.pc + 2#16 := by rw [← h]; rfl
  have hjk_le : j ≤ k := Fin.le_def.mpr (by omega)
  calc t.fetch = t.readByte t.pc.toNat ++ t.readByte (t.pc.toNat + 1) := rfl
    _ = t.readByte (s.i.toNat + j.val) ++ t.readByte (s.i.toNat + k.val) := by rw [htpc, hpc, hjk, Nat.add_assoc]
    _ = s.getV j ++ s.getV k := by rw [hbyte j (hjk_le.trans hkx), hbyte k hkx]

end Sys2Proof.Safety
end

section
/-! PROOFS. The fields of a word as numbers (FieldsOfAWord) and as simp rules on built words, and a word under the masks
of the opcode map (R92, R93). -/

namespace Sys2Proof.Laws

/-! ### Fields as numbers -/

theorem wordOfBytes_toNat (hi lo : Byte) : (wordOfBytes hi lo).toNat = 256 * hi.toNat + lo.toNat := by
  rw [wordOfBytes, BitVec.toNat_append, Nat.shiftLeft_eq, Nat.mul_comm]
  exact (Nat.two_pow_add_eq_or_of_lt lo.isLt hi.toNat).symm

theorem family_toNat (w : Word) : (family w).toNat = w.toNat / 4096 := by
  have hw := w.isLt
  rw [family, BitVec.extractLsb'_toNat, Nat.shiftRight_eq_div_pow]
  omega

theorem fieldX_val (w : Word) : (fieldX w).val = w.toNat / 256 % 16 := by simp [fieldX, Nat.shiftRight_eq_div_pow]

theorem fieldY_val (w : Word) : (fieldY w).val = w.toNat / 16 % 16 := by simp [fieldY, Nat.shiftRight_eq_div_pow]

theorem fieldN_toNat (w : Word) : (fieldN w).toNat = w.toNat % 16 := by simp [fieldN]

theorem fieldNN_toNat (w : Word) : (fieldNN w).toNat = w.toNat % 256 := by simp [fieldNN]

theorem fieldNNN_toNat (w : Word) : (fieldNNN w).toNat = w.toNat % 4096 := by simp [fieldNNN]

theorem fieldNN_wordOfBytes (hi lo : Byte) : fieldNN (wordOfBytes hi lo) = lo := by
  apply BitVec.eq_of_toNat_eq
  have hlo := lo.isLt
  rw [fieldNN_toNat, wordOfBytes_toNat]
  omega

/-! ### Fields of a built word -/

section Formats

variable (f : Nibble) (x y : Reg) (n : Nibble) (nn : Byte) (nnn : Imm12)

@[simp] theorem family_formatNNN : family (formatNNN f nnn) = f := (formatNNN_fields f nnn).1
@[simp] theorem fieldNNN_formatNNN : fieldNNN (formatNNN f nnn) = nnn := (formatNNN_fields f nnn).2
@[simp] theorem family_formatXNN : family (formatXNN f x nn) = f := (formatXNN_fields f x nn).1
@[simp] theorem fieldX_formatXNN : fieldX (formatXNN f x nn) = x := (formatXNN_fields f x nn).2.1
@[simp] theorem fieldNN_formatXNN : fieldNN (formatXNN f x nn) = nn := (formatXNN_fields f x nn).2.2
@[simp] theorem family_formatXYN : family (formatXYN f x y n) = f := (formatXYN_fields f x y n).1
@[simp] theorem fieldX_formatXYN : fieldX (formatXYN f x y n) = x := (formatXYN_fields f x y n).2.1
@[simp] theorem fieldY_formatXYN : fieldY (formatXYN f x y n) = y := (formatXYN_fields f x y n).2.2.1
@[simp] theorem fieldN_formatXYN : fieldN (formatXYN f x y n) = n := (formatXYN_fields f x y n).2.2.2

end Formats

/-! ### A word under a mask -/

variable {w p : Word}

/-- The family mask of R97. -/
theorem and_0xF000 (w : Word) : w &&& 0xF000#16 = formatNNN (family w) 0x000#12 := by
  conv_lhs => rw [← formatNNN_of_fields w]
  exact formatNNN_family _ _

/-- The mask of family 8 in R97, family and N. -/
theorem and_0xF00F (w : Word) : w &&& 0xF00F#16 = formatXYN (family w) 0 0 (fieldN w) := by
  conv_lhs => rw [← formatXYN_of_fields w]
  exact formatXYN_nibble _ _ _ _

/-- The mask of families 0, E and F in R97, family and NN. -/
theorem and_0xF0FF (w : Word) : w &&& 0xF0FF#16 = formatXNN (family w) 0 (fieldNN w) := by
  conv_lhs => rw [← formatXNN_of_fields w]
  exact formatXNN_byte _ _ _

/-- The bits of families 5 and 9 that R98 does not ignore. -/
theorem and_0xFFF0 (w : Word) : w &&& 0xFFF0#16 = formatXYN (family w) (fieldX w) (fieldY w) 0x0#4 := by
  conv_lhs => rw [← formatXYN_of_fields w, formatXYN, show 0xFFF0#16 = BitVec.allOnes 12 ++ 0x0#4 from rfl]
  rw [BitVec.and_append, BitVec.and_zero, BitVec.and_allOnes, formatXYN]

theorem fields_of_and_0xF000 (h : w &&& 0xF000#16 = p) : family w = family p := by
  rw [← h, and_0xF000, family_formatNNN]

theorem fields_of_and_0xF00F (h : w &&& 0xF00F#16 = p) : family w = family p ∧ fieldN w = fieldN p := by
  rw [← h, and_0xF00F, family_formatXYN, fieldN_formatXYN]
  exact ⟨rfl, rfl⟩

theorem fields_of_and_0xF0FF (h : w &&& 0xF0FF#16 = p) : family w = family p ∧ fieldNN w = fieldNN p := by
  rw [← h, and_0xF0FF, family_formatXNN, fieldNN_formatXNN]
  exact ⟨rfl, rfl⟩

end Sys2Proof.Laws

namespace Sys2Proof.Safety

open Sys2Proof.Laws

/-- Settles O5: each field is a quotient and a remainder of the word, and the word is 256 times its high byte plus its
low byte. -/
theorem fieldsOfAWord : Obligations.FieldsOfAWord := by
  rintro hi lo w rfl
  have hhi := hi.isLt
  have hlo := lo.isLt
  refine ⟨family_toNat _, fieldX_val _, fieldY_val _, fieldN_toNat _, fieldNN_toNat _, fieldNNN_toNat _, ?_, ?_, ?_, ?_,
    fieldNN_wordOfBytes hi lo⟩
  · rw [family_toNat, wordOfBytes_toNat]
    omega
  · rw [fieldX_val, wordOfBytes_toNat]
    omega
  · rw [fieldY_val, wordOfBytes_toNat]
    omega
  · rw [fieldN_toNat, wordOfBytes_toNat]
    omega

end Sys2Proof.Safety
end

section
/-! PROOFS. The decoder against the encoder (DecodeOfEncode, EncodeOfDecode, SampleWordsDecode) and against the
unhandled space (UnhandledSpace): R98, R100, R102. -/

namespace Sys2Proof.Laws

variable {w : Word} {i : Instr}

/-! ### UNHANDLED among the instructions (R99) -/

theorem eq_unhandled_encode (h : i.isUnhandled = true) : i = .unhandled (encode i) := by
  cases i with
  | unhandled op => rfl
  | _ => nomatch h

theorem wf_of_handled (h : i.isUnhandled = false) : i.wf = true := by
  cases i with
  | unhandled op => nomatch h
  | _ => rfl

/-! ### The unhandled space (R100) -/

/-- The table of R100 in the fields of R92. -/
theorem unhandledWord_eq (w : Word) : unhandledWord w =
    ((family w == 0x0#4 && !([0xE0#8, 0xEE#8].contains (fieldNN w))) ||
      (family w == 0x8#4 && [0x8#4, 0x9#4, 0xA#4, 0xB#4, 0xC#4, 0xD#4, 0xF#4].contains (fieldN w)) ||
      (family w == 0xE#4 && !([0x9E#8, 0xA1#8].contains (fieldNN w))) ||
      (family w == 0xF#4 &&
        !([0x07#8, 0x0A#8, 0x15#8, 0x18#8, 0x1E#8, 0x29#8, 0x33#8, 0x55#8, 0x65#8].contains (fieldNN w)))) := rfl

/-- R100 lists the undefined N of family 8 and R102 the defined ones. -/
theorem undefined_nibbles_eq_not_defined (n : Nibble) :
    [0x8#4, 0x9#4, 0xA#4, 0xB#4, 0xC#4, 0xD#4, 0xF#4].contains n =
      !([0x0#4, 0x1#4, 0x2#4, 0x3#4, 0x4#4, 0x5#4, 0x6#4, 0x7#4, 0xE#4].contains n) := by
  revert n
  decide

theorem unhandledWord_of_family0 (hf : family w = 0x0#4) :
    unhandledWord w = !([0xE0#8, 0xEE#8].contains (fieldNN w)) := by simp [unhandledWord_eq, hf]

theorem unhandledWord_of_family8 (hf : family w = 0x8#4) :
    unhandledWord w =
      !([0x0#4, 0x1#4, 0x2#4, 0x3#4, 0x4#4, 0x5#4, 0x6#4, 0x7#4, 0xE#4].contains (fieldN w)) := by
  rw [← undefined_nibbles_eq_not_defined, unhandledWord_eq, hf]
  simp

theorem unhandledWord_of_familyE (hf : family w = 0xE#4) :
    unhandledWord w = !([0x9E#8, 0xA1#8].contains (fieldNN w)) := by simp [unhandledWord_eq, hf]

theorem unhandledWord_of_familyF (hf : family w = 0xF#4) :
    unhandledWord w =
      !([0x07#8, 0x0A#8, 0x15#8, 0x18#8, 0x1E#8, 0x29#8, 0x33#8, 0x55#8, 0x65#8].contains (fieldNN w)) := by
  simp [unhandledWord_eq, hf]

/-- The twelve families with no secondary dispatch have no unhandled word (R95). -/
theorem unhandledWord_of_single_handler (hf : family w ∉ [0x0#4, 0x8#4, 0xE#4, 0xF#4]) : unhandledWord w = false := by
  simp_all [unhandledWord_eq]

/-! ### The bits a pattern ignores (R98) -/

theorem unhandledWord_of_ignored_X (hf : family w = 0x0#4) (hnn : fieldNN w = 0xE0#8 ∨ fieldNN w = 0xEE#8) :
    unhandledWord w = false := by
  rw [unhandledWord_of_family0 hf]
  rcases hnn with hnn | hnn <;> rw [hnn] <;> rfl

theorem unhandledWord_of_ignored_N (hf : family w = 0x5#4 ∨ family w = 0x9#4) : unhandledWord w = false := by
  apply unhandledWord_of_single_handler
  rcases hf with hf | hf <;> simp [hf]

theorem canonicalWord_of_no_ignored_bits (hf : family w ∉ [0x0#4, 0x5#4, 0x9#4]) : canonicalWord w = w := by
  simp_all [canonicalWord]

theorem canonicalWord_of_ignored_N (hf : family w = 0x5#4 ∨ family w = 0x9#4) : canonicalWord w = w &&& 0xFFF0#16 := by
  rcases hf with hf | hf <;> simp [canonicalWord, hf]

theorem canonicalWord_of_ignored_X (hf : family w = 0x0#4) (hnn : fieldNN w = 0xE0#8 ∨ fieldNN w = 0xEE#8) :
    canonicalWord w = w &&& 0xF0FF#16 := if_pos ⟨hf, hnn⟩

theorem canonicalWord_of_unhandledWord (hu : unhandledWord w = true) : canonicalWord w = w := by
  have hX : ¬(family w = 0x0#4 ∧ (fieldNN w = 0xE0#8 ∨ fieldNN w = 0xEE#8)) :=
    fun ⟨hf, hnn⟩ => by simp [unhandledWord_of_ignored_X hf hnn] at hu
  have hN : ¬(family w = 0x5#4 ∨ family w = 0x9#4) :=
    fun hf => by simp [unhandledWord_of_ignored_N hf] at hu
  rw [canonicalWord, if_neg hX, if_neg hN]

/-! ### What a word decodes to -/

/-- i is UNHANDLED exactly if w lies in the unhandled space, and its word is w with the ignored bits 0: all that R98 and
R100 ask of the instruction of w. -/
structure IsDecodingOf (w : Word) (i : Instr) : Prop where
  isUnhandled_eq : i.isUnhandled = unhandledWord w
  encode_eq : encode i = canonicalWord w

theorem IsDecodingOf.of_unhandledWord (hu : unhandledWord w = true) : IsDecodingOf w (.unhandled w) :=
  ⟨hu.symm, (canonicalWord_of_unhandledWord hu).symm⟩

theorem IsDecodingOf.of_no_ignored_bits (hf : family w ∉ [0x0#4, 0x5#4, 0x9#4]) (hu : unhandledWord w = false)
    (hi : i.isUnhandled = false) (henc : encode i = w) : IsDecodingOf w i :=
  ⟨hi.trans hu.symm, henc.trans (canonicalWord_of_no_ignored_bits hf).symm⟩

theorem IsDecodingOf.of_ignored_X (hf : family w = 0x0#4) (hnn : fieldNN w = 0xE0#8 ∨ fieldNN w = 0xEE#8)
    (hi : i.isUnhandled = false) (henc : encode i = w &&& 0xF0FF#16) : IsDecodingOf w i := by
  constructor
  · rw [hi, unhandledWord_of_ignored_X hf hnn]
  · rw [henc, canonicalWord_of_ignored_X hf hnn]

theorem IsDecodingOf.of_ignored_N (hf : family w = 0x5#4 ∨ family w = 0x9#4) (hi : i.isUnhandled = false)
    (henc : encode i = w &&& 0xFFF0#16) : IsDecodingOf w i := by
  constructor
  · rw [hi, unhandledWord_of_ignored_N hf]
  · rw [henc, canonicalWord_of_ignored_N hf]

/-! ### The dispatch, family by family (R95, R96) -/

theorem decodeFamily0_isDecodingOf (hf : family w = 0x0#4) : IsDecodingOf w (decodeFamily0 w) := by
  have hu := unhandledWord_of_family0 hf
  unfold decodeFamily0
  split
  case h_1 hnn => exact .of_ignored_X hf (.inl hnn) rfl (by rw [and_0xF0FF, hf, hnn]; rfl)
  case h_2 hnn => exact .of_ignored_X hf (.inr hnn) rfl (by rw [and_0xF0FF, hf, hnn]; rfl)
  case h_3 => exact .of_unhandledWord (by simp_all)

theorem decodeFamily8_isDecodingOf (hf : family w = 0x8#4) : IsDecodingOf w (decodeFamily8 w) := by
  have hu := unhandledWord_of_family8 hf
  unfold decodeFamily8
  split
  case h_10 => exact .of_unhandledWord (by simp_all)
  all_goals next hn =>
    exact .of_no_ignored_bits (by simp [hf]) (by rw [hu, hn]; rfl) rfl
      (by rw [encode, ← hf, ← hn, formatXYN_of_fields])

theorem decodeFamilyE_isDecodingOf (hf : family w = 0xE#4) : IsDecodingOf w (decodeFamilyE w) := by
  have hu := unhandledWord_of_familyE hf
  unfold decodeFamilyE
  split
  case h_3 => exact .of_unhandledWord (by simp_all)
  all_goals next hn =>
    exact .of_no_ignored_bits (by simp [hf]) (by rw [hu, hn]; rfl) rfl
      (by rw [encode, ← hf, ← hn, formatXNN_of_fields])

theorem decodeFamilyF_isDecodingOf (hf : family w = 0xF#4) : IsDecodingOf w (decodeFamilyF w) := by
  have hu := unhandledWord_of_familyF hf
  unfold decodeFamilyF
  split
  case h_10 => exact .of_unhandledWord (by simp_all)
  all_goals next hn =>
    exact .of_no_ignored_bits (by simp [hf]) (by rw [hu, hn]; rfl) rfl
      (by rw [encode, ← hf, ← hn, formatXNN_of_fields])

/-- A family with a single handler and no ignored bits decodes to the instruction of its format. -/
theorem IsDecodingOf.of_single_handler (hf : family w ∉ [0x0#4, 0x5#4, 0x8#4, 0x9#4, 0xE#4, 0xF#4])
    (hi : i.isUnhandled = false) (henc : encode i = w) : IsDecodingOf w i :=
  .of_no_ignored_bits (by simp_all) (unhandledWord_of_single_handler (by simp_all)) hi henc

theorem decode_isDecodingOf (w : Word) : IsDecodingOf w (decode w) := by
  unfold decode
  split
  case h_1 hf => exact decodeFamily0_isDecodingOf hf
  case h_9 hf => exact decodeFamily8_isDecodingOf hf
  case h_15 hf => exact decodeFamilyE_isDecodingOf hf
  case h_16 hf => exact decodeFamilyF_isDecodingOf hf
  case h_2 hf | h_3 hf | h_11 hf | h_12 hf =>
    exact .of_single_handler (by simp [hf]) rfl (by rw [encode, ← hf, formatNNN_of_fields])
  case h_4 hf | h_5 hf | h_7 hf | h_8 hf | h_13 hf =>
    exact .of_single_handler (by simp [hf]) rfl (by rw [encode, ← hf, formatXNN_of_fields])
  case h_6 hf | h_10 hf => exact .of_ignored_N (by simp [hf]) rfl (by rw [encode, ← hf, and_0xFFF0])
  case h_14 hf => exact .of_single_handler (by simp [hf]) rfl (by rw [encode, ← hf, formatXYN_of_fields])
  case h_17 =>
    -- Sixteen families are listed, so no nibble is left for the last arm.
    exfalso
    generalize family w = f at *
    revert f
    decide

theorem decode_of_unhandledWord (hu : unhandledWord w = true) : decode w = .unhandled w := by
  obtain ⟨hi, henc⟩ := decode_isDecodingOf w
  rw [eq_unhandled_encode (hi.trans hu), henc, canonicalWord_of_unhandledWord hu]

theorem decode_wf (w : Word) : (decode w).wf = true := by
  cases hu : unhandledWord w with
  | true => rw [decode_of_unhandledWord hu, Instr.wf, hu]
  | false => exact wf_of_handled ((decode_isDecodingOf w).isUnhandled_eq.trans hu)

/-! ### The instruction of an encoding -/

theorem decode_encode (h : i.wf = true) : decode (encode i) = i := by
  cases i with
  | unhandled op => exact decode_of_unhandledWord h
  | op00E0 | op00EE => rfl
  | op1NNN nnn | op2NNN nnn | opANNN nnn | opBNNN nnn => simp [encode, decode]
  | op3XNN x nn | op4XNN x nn | op6XNN x nn | op7XNN x nn | opCXNN x nn => simp [encode, decode]
  | op5XY0 x y | op9XY0 x y => simp [encode, decode]
  | opDXYN x y n => simp [encode, decode]
  | op8XY0 x y | op8XY1 x y | op8XY2 x y | op8XY3 x y | op8XY4 x y | op8XY5 x y | op8XY6 x y | op8XY7 x y
  | op8XYE x y => simp [encode, decode, decodeFamily8]
  | opEX9E x | opEXA1 x => simp [encode, decode, decodeFamilyE]
  | opFX07 x | opFX0A x | opFX15 x | opFX18 x | opFX1E x | opFX29 x | opFX33 x | opFX55 x | opFX65 x =>
    simp [encode, decode, decodeFamilyF]

theorem decodeBytes_bytesOfWord (w : Word) (rest : List Byte) :
    decodeBytes (bytesOfWord w ++ rest) = .ok (decode w, rest) := by
  conv_rhs => rw [← wordOfBytes_of_bytes w]
  rfl

end Sys2Proof.Laws

namespace Sys2Proof.Safety

open Sys2Proof.Laws

/-- Settles O1: a handled instruction is read back from the fields of its format, and UNHANDLED from a word that lies in
the unhandled space. -/
theorem decodeOfEncode : Obligations.DecodeOfEncode := by
  intro i hwf
  refine ⟨decode_encode hwf, fun rest => ?_⟩
  rw [encodeBytes, decodeBytes_bytesOfWord, decode_encode hwf]

/-- Settles O2: the canonical word is the encoding of the decoded instruction, so O1 gives its decoding. -/
theorem encodeOfDecode : Obligations.EncodeOfDecode := by
  intro w
  have henc := (decode_isDecodingOf w).encode_eq
  refine ⟨decode_wf w, henc, ?_⟩
  rw [← henc, decode_encode (decode_wf w)]

/-- Settles O4, by the decoder's cases on a word. -/
theorem unhandledSpace : Obligations.UnhandledSpace :=
  fun w => ⟨(decode_isDecodingOf w).isUnhandled_eq, decode_of_unhandledWord⟩

/-- Settles O6, by evaluating the decoder on the words. -/
theorem sampleWordsDecode : Obligations.SampleWordsDecode := by
  unfold Obligations.SampleWordsDecode
  decide

end Sys2Proof.Safety
end

section
/-! PROOFS. The decoder against the opcode map (DecoderFollowsOpcodeMap): every encoding lies in its own row, the rows
exclude each other, and no row selects a word of the unhandled space (R97, R100). -/

namespace Sys2Proof.Laws

variable {w : Word} {i : Instr} {r q : OpcodeRow}

section
open EncodesInRow

theorem encodesInRow (i : Instr) : EncodesInRow.Statement i := by
  cases i
  exacts [op00E0, op00EE, op1NNN _, op2NNN _, op3XNN _ _, op4XNN _ _, op5XY0 _ _, op6XNN _ _, op7XNN _ _, op8XY0 _ _,
    op8XY1 _ _, op8XY2 _ _, op8XY3 _ _, op8XY4 _ _, op8XY5 _ _, op8XY6 _ _, op8XY7 _ _, op8XYE _ _, op9XY0 _ _,
    opANNN _, opBNNN _, opCXNN _ _, opDXYN _ _ _, opEX9E _, opEXA1 _, opFX07 _, opFX0A _, opFX15 _, opFX18 _,
    opFX1E _, opFX29 _, opFX33 _, opFX55 _, opFX65 _, unhandled _]

end

theorem exists_row_of_handled (h : i.isUnhandled = false) :
    ∃ r ∈ opcodeMap, r.number = i.row ∧ encode i &&& r.mask = r.pattern := by
  have hrow := encodesInRow i
  unfold EncodesInRow.Statement at hrow
  cases hr : rowOf i with
  | none => simp [hr, h] at hrow
  | some r =>
    simp only [hr] at hrow
    exact ⟨r, List.mem_of_find?_eq_some hr, by simpa using List.find?_some hr, hrow.2⟩

/-- Two rows of the map differ in a bit that both masks keep (R97). -/
theorem opcodeMap_rows_differ : ∀ r ∈ opcodeMap, ∀ q ∈ opcodeMap,
    r.pattern &&& q.mask = q.pattern &&& r.mask → r = q := by
  decide

theorem row_unique (hr : r ∈ opcodeMap) (hq : q ∈ opcodeMap) (hwr : w &&& r.mask = r.pattern)
    (hwq : w &&& q.mask = q.pattern) : r = q := by
  apply opcodeMap_rows_differ r hr q hq
  rw [← hwr, ← hwq, BitVec.and_assoc, BitVec.and_assoc, BitVec.and_comm r.mask]

theorem rowsSelected_of_row (hr : r ∈ opcodeMap) (hw : w &&& r.mask = r.pattern) : rowsSelected w = [r.number] := by
  have hsel : opcodeMap.filter (fun q => w &&& q.mask == q.pattern) = opcodeMap.filter (· == r) := by
    refine List.filter_congr fun q hq => ?_
    rw [Bool.eq_iff_iff, beq_iff_eq, beq_iff_eq]
    exact ⟨fun hwq => row_unique hq hr hwq hw, fun h => h ▸ hw⟩
  have hnodup : opcodeMap.Nodup := by decide
  rw [rowsSelected, hsel, List.filter_beq, List.count_eq_one_of_mem hnodup hr]
  rfl

/-- What a row looks at: the family, outside the four families with a secondary dispatch, or the family and a value of
the secondary field that R100 does not list (R95, R96). -/
theorem opcodeMap_row_cases : ∀ r ∈ opcodeMap,
    (r.mask = 0xF000#16 ∧ family r.pattern ∉ [0x0#4, 0x8#4, 0xE#4, 0xF#4]) ∨
    (r.mask = 0xF00F#16 ∧ family r.pattern = 0x8#4 ∧ unhandledWord r.pattern = false) ∨
    (r.mask = 0xF0FF#16 ∧ family r.pattern ∈ [0x0#4, 0xE#4, 0xF#4] ∧ unhandledWord r.pattern = false) := by
  decide

theorem family_of_row (hr : r ∈ opcodeMap) (hw : w &&& r.mask = r.pattern) : family w = family r.pattern := by
  obtain ⟨hm, -⟩ | ⟨hm, -⟩ | ⟨hm, -⟩ := opcodeMap_row_cases r hr <;> rw [hm] at hw
  · exact fields_of_and_0xF000 hw
  · exact (fields_of_and_0xF00F hw).1
  · exact (fields_of_and_0xF0FF hw).1

theorem unhandledWord_of_row (hr : r ∈ opcodeMap) (hw : w &&& r.mask = r.pattern) : unhandledWord w = false := by
  have hf := family_of_row hr hw
  obtain ⟨-, hp⟩ | ⟨hm, hp, hu⟩ | ⟨hm, hp, hu⟩ := opcodeMap_row_cases r hr
  · exact unhandledWord_of_single_handler (hf ▸ hp)
  · rw [hm] at hw
    have hn := (fields_of_and_0xF00F hw).2
    rw [unhandledWord_of_family8 hp] at hu
    rw [unhandledWord_of_family8 (hf.trans hp), hn, hu]
  · rw [hm] at hw
    have hnn := (fields_of_and_0xF0FF hw).2
    have h8 : (family r.pattern == 0x8#4) = false := beq_false_of_ne (ne_of_mem_of_not_mem hp (by decide))
    rw [← hu, unhandledWord_eq, unhandledWord_eq, hf, hnn, h8, Bool.false_and, Bool.false_and]

theorem rowsSelected_of_unhandledWord (hu : unhandledWord w = true) : rowsSelected w = [] := by
  rw [rowsSelected, List.map_eq_nil_iff, List.filter_eq_nil_iff]
  intro r hr hw
  rw [unhandledWord_of_row hr (beq_iff_eq.mp hw)] at hu
  nomatch hu

/-- No bit that a word's pattern ignores stands under the mask of a row it can select (R98). -/
theorem and_mask_of_canonicalWord (hr : r ∈ opcodeMap) (hc : canonicalWord w &&& r.mask = r.pattern) :
    w &&& r.mask = r.pattern := by
  unfold canonicalWord at hc
  split at hc
  next =>
    have hm : ∀ r ∈ opcodeMap, 0xF0FF#16 &&& r.mask = r.mask := by decide
    rwa [BitVec.and_assoc, hm r hr] at hc
  split at hc
  next hN =>
    have hm : ∀ r ∈ opcodeMap, family r.pattern = 0x5#4 ∨ family r.pattern = 0x9#4 → 0xFFF0#16 &&& r.mask = r.mask := by
      decide
    have hf : family w = family r.pattern := by rw [← family_of_row hr hc, and_0xFFF0, family_formatXYN]
    rw [hf] at hN
    rwa [BitVec.and_assoc, hm r hr hN] at hc
  next => exact hc

end Sys2Proof.Laws

namespace Sys2Proof.Safety

open Sys2Proof.Laws

/-- Settles O3: the encoding of a handled instruction lies in the instruction's row, which is then the only one, and no
row selects a word of the unhandled space. -/
theorem decoderFollowsOpcodeMap : Obligations.DecoderFollowsOpcodeMap := by
  intro w
  obtain ⟨hi, henc⟩ := decode_isDecodingOf w
  cases hu : unhandledWord w with
  | true => rw [hi, hu, if_pos rfl, rowsSelected_of_unhandledWord hu]
  | false =>
    obtain ⟨r, hr, hnum, hrow⟩ := exists_row_of_handled (hi.trans hu)
    rw [henc] at hrow
    rw [hi, hu, rowsSelected_of_row hr (and_mask_of_canonicalWord hr hrow), hnum]
    rfl

end Sys2Proof.Safety
end

section
/-! PROOFS. Nothing stops the model (NothingStopsTheModel): a row of R202 or an effect, for every instruction. -/

namespace Sys2Proof.Safety

open Sys2Proof.Machine

theorem exec_completes (i : Instr) (s : State) : Completes (exec i s) := by
  cases hc : faultCondition i s with
  | none => exact ⟨effect i s, exec_eq_effect hc⟩
  | some c => exact ⟨{ s with fault := some c }, (exec_honoursRow i s).1 c hc⟩

theorem step_completes (s : State) : Completes (step s) := by
  obtain ⟨-, h⟩ | ⟨-, -, h⟩ | ⟨-, -, h⟩ := step_cases s
  · exact ⟨s, h⟩
  · exact ⟨{ s with fault := some .fetchFault }, h⟩
  · exact h ▸ exec_completes (decode s.fetch) s

/-- Settles O11: an instruction ends in its effect or its fault, a step in one, and any other transaction in the state
it gives. -/
theorem nothingStopsTheModel : Obligations.NothingStopsTheModel := by
  refine ⟨exec_completes, fun tx s => ?_⟩
  cases tx with
  | step => exact step_completes s
  | _ => exact ⟨_, rfl⟩

end Sys2Proof.Safety
end

section
/-! PROOFS. Control transfer and the default handler (40_control_flow.md): the words of a row of R97 decode to its
instruction, an instruction that does not fault is framed, and on these two rest JumpToNNN, CallPushes, ReturnPops,
ReturnComesBack, SkipOnImmediate, SkipOnRegister, JumpOffsetV0, UnhandledAdvances and SelfJumpHolds. -/

namespace Sys2Proof.Machine

variable {s t : State}

/-! ### The stack (R121, R123) -/

/-- After a push the slot SP named holds the word pushed, and every other slot what it held. -/
theorem State.push_stk_getElem (s : State) (w : Word) (h : s.sp.val < 16) (k : Fin 16) :
    (s.push w h).stk[k] = if k.val = s.sp.val then w else s.stk[k] := by
  rw [State.push_stk, Fin.getElem_fin, Vector.getElem_set]
  exact if_congr eq_comm rfl rfl

theorem State.top_eq_getElem {k : Fin 16} (h : 0 < s.sp.val) (hk : s.sp.val = k.val + 1) : s.top h = s.stk[k] := by
  have hpred : s.sp.val - 1 = k.val := by omega
  simp only [State.top, hpred, Fin.getElem_fin]

/-! ### Runs and results of steps (R205, R206) -/

/-- A machine whose state is its own next state stays in it for any number of steps. -/
theorem run_of_step_self {M : Host.Core} {s : M.State} (h : M.step s = .next s) (n : Nat) : M.run n s = .next s := by
  induction n with
  | zero => rfl
  | succ n ih =>
    rw [run_succ, h]
    exact ih

/-- What a step returns that is admitted and leaves the latch at None rests on the word fetched alone (R205). -/
theorem stepResult_of_no_fault (hadm : s.admitted = true) (hstep : step s = .next t) (hfault : t.fault = none) :
    stepResult s = if (decode s.fetch).isUnhandled then some .unhandled else some .executed := by
  simp only [stepResult, hadm, hstep, hfault, if_true]

/-! ### The jump to itself (R122, R251) -/

/-- An address below 4096 is the extension of its low 12 bits. -/
theorem imm16_setWidth {a : Word} (h : a.toNat < 4096) : imm16 (a.setWidth 12) = a := by
  apply BitVec.eq_of_toNat_eq
  rw [imm16_toNat, BitVec.toNat_setWidth]
  exact Nat.mod_eq_of_lt h

/-- Jumping to one's own pc is no change at all. -/
theorem exec_op1NNN_self (h : s.pc.toNat < 4096) : exec (.op1NNN (s.pc.setWidth 12)) s = .next s := by
  calc exec (.op1NNN (s.pc.setWidth 12)) s = .next (s.setPc (imm16 (s.pc.setWidth 12))) := rfl
    _ = .next (s.setPc s.pc) := by rw [imm16_setWidth h]
    _ = .next s := rfl

end Sys2Proof.Machine

namespace Sys2Proof.Safety

open Sys2Proof.Machine Sys2Proof.Laws

variable {i : Instr} {s t : State}

/-! ### The words of a row (R97) -/

/-- A row with the mask 0xF000 is decided by the family. -/
theorem decodes_of_family {p : Word} {f : Word → Instr} (k : Nibble) (hp : family p = k)
    (h : ∀ w, family w = k → decode w = f w) : Decodes 0xF000#16 p f :=
  fun w hw => h w ((fields_of_and_0xF000 hw).trans hp)

/-- A row with the mask 0xF0FF is decided by the family and NN. -/
theorem decodes_of_family_NN {p : Word} {f : Word → Instr} (k : Nibble) (b : Byte) (hp : family p = k ∧ fieldNN p = b)
    (h : ∀ w, family w = k → fieldNN w = b → decode w = f w) : Decodes 0xF0FF#16 p f := by
  intro w hw
  obtain ⟨hf, hnn⟩ := fields_of_and_0xF0FF hw
  exact h w (hf.trans hp.1) (hnn.trans hp.2)

/-! ### Completion with a frame -/

/-- Where its row of R202 does not hold, an instruction completes: pc is at its row of R25, and the registers and parts
it does not write are as they were. -/
theorem exec_completes_framed (h : faultCondition i s = none) :
    ∃ t, exec i s = .next t ∧ t.pc = pcAfter i s ∧ KeepsRegsBut (writesRegs i) s t ∧
      KeepsBut (.pc :: writesParts i) s t :=
  ⟨effect i s, exec_eq_effect h, effect_pc i s, fun _ hr => effect_getV s hr, effect_keepsBut i s⟩

/-- The same frame for a next state that is known by an equation of its own. -/
theorem frame_of_exec (h : exec i s = .next t) (hc : faultCondition i s = none) :
    KeepsRegsBut (writesRegs i) s t ∧ KeepsBut (.pc :: writesParts i) s t := by
  obtain ⟨u, hu, -, hregs, hparts⟩ := exec_completes_framed hc
  obtain rfl : u = t := Host.Outcome.next.inj (hu.symm.trans h)
  exact ⟨hregs, hparts⟩

/-! ### Jumps (R122, R128) -/

/-- Settles O21: family 1 decodes to 1NNN, whose row of R25 is NNN. -/
theorem jumpToNNN : Obligations.JumpToNNN := by
  refine ⟨decodes_of_family 0x1#4 rfl fun w hf => by simp only [decode, hf], fun nnn s => ?_⟩
  obtain ⟨t, hexec, hpc, hframe⟩ := exec_completes_framed (i := .op1NNN nnn) (s := s) rfl
  refine ⟨t, hexec, ?_, hframe⟩
  rw [hpc, pcAfter, ← imm16_eq_ofNat, imm16_toNat]

/-- Settles O28: family B decodes to BNNN, and the sum of its row of R25 is at most 0x00FF + 0x0FFF, below 2^16. -/
theorem jumpOffsetV0 : Obligations.JumpOffsetV0 := by
  refine ⟨decodes_of_family 0xB#4 rfl fun w hf => by simp only [decode, hf], fun nnn s => ?_⟩
  obtain ⟨t, hexec, hpc, hframe⟩ := exec_completes_framed (i := .opBNNN nnn) (s := s) rfl
  have hv := (s.getV 0).isLt
  have hn := nnn.isLt
  have hsum : t.pc.toNat = (s.getV 0).toNat + nnn.toNat := by
    rw [hpc, pcAfter, BitVec.toNat_ofNat]
    exact Nat.mod_eq_of_lt (by omega)
  exact ⟨t, hexec, hsum, by omega, hframe⟩

/-- Settles O22: the word at pc decodes to the jump to pc, so a step leaves the state as it is, and so does any run. -/
theorem selfJumpHolds : Obligations.SelfJumpHolds := by
  intro s hrun hfault hpc hword
  have hdec : decode s.fetch = .op1NNN (s.pc.setWidth 12) :=
    (congrArg decode hword).trans (decode_encode (i := .op1NNN (s.pc.setWidth 12)) rfl)
  have hstep : step s = .next s := by
    rw [step_eq_exec_decode_fetch hrun hfault hpc, hdec, exec_op1NNN_self (by omega)]
  exact run_of_step_self (M := Sys2Proof.core) hstep

/-! ### Call and return (R121, R123) -/

/-- 2NNN with a free entry pushes pc + 2 and jumps (R123). -/
theorem exec_op2NNN_pushes (nnn : Imm12) (hsp : s.sp.val ≠ 16) :
    ∃ t, exec (.op2NNN nnn) s = .next t ∧ t.pc.toNat = nnn.toNat ∧ t.sp.val = s.sp.val + 1 ∧
      (∀ k : Fin 16, t.stk[k] = if k.val = s.sp.val then s.pc + 2#16 else s.stk[k]) ∧
      KeepsRegsBut [] s t ∧ KeepsBut [.pc, .stack] s t := by
  have hlt : s.sp.val < 16 := by omega
  have hexec := exec_op2NNN_of_lt s nnn hlt
  exact ⟨_, hexec, imm16_toNat nnn, rfl, s.push_stk_getElem (s.pc + 2#16) hlt, frame_of_exec hexec (if_neg hsp)⟩

/-- 00EE with an entry in use pops it into pc (R121). -/
theorem exec_op00EE_pops {k : Fin 16} (hsp : s.sp.val = k.val + 1) :
    ∃ t, exec .op00EE s = .next t ∧ t.pc = s.stk[k] ∧ t.sp.val = k.val ∧ t.stk = s.stk ∧
      KeepsRegsBut [] s t ∧ KeepsBut [.pc, .stack] s t := by
  have hpos : 0 < s.sp.val := by omega
  have hexec := exec_op00EE_of_pos s hpos
  have hpred : s.sp.val - 1 = k.val := by omega
  exact ⟨_, hexec, State.top_eq_getElem hpos hsp, hpred, rfl, frame_of_exec hexec (if_neg (by omega))⟩

/-- Settles O23: family 2 decodes to 2NNN, which pushes where an entry is free and latches StackOverflow where none
is. -/
theorem callPushes : Obligations.CallPushes :=
  ⟨decodes_of_family 0x2#4 rfl fun w hf => by simp only [decode, hf],
    fun nnn _ => exec_op2NNN_pushes nnn, fun nnn s => exec_op2NNN_of_full s nnn⟩

/-- Settles O24: NN = EE in family 0 decodes to 00EE, which pops where an entry is in use and latches StackUnderflow
where none is. -/
theorem returnPops : Obligations.ReturnPops :=
  ⟨decodes_of_family_NN 0x0#4 0xEE#8 ⟨rfl, rfl⟩ fun w hf hnn => by simp only [decode, hf, decodeFamily0, hnn],
    fun _ _ => exec_op00EE_pops, exec_op00EE_of_empty⟩

/-- Settles O25: the entry the return pops is the one the call pushed, in the slot that SP named at the call. -/
theorem returnComesBack : Obligations.ReturnComesBack := by
  intro nnn s t u hsp hcall husp hustk
  obtain ⟨t', hexec, -, htsp, htstk, -⟩ := exec_op2NNN_pushes nnn hsp
  obtain rfl : t' = t := Host.Outcome.next.inj (hexec.symm.trans hcall)
  obtain ⟨k, hk⟩ : ∃ k : Fin 16, k.val = s.sp.val := ⟨⟨s.sp.val, by omega⟩, rfl⟩
  have hentry : u.stk[k] = s.pc + 2#16 := by rw [hustk k (by omega), htstk k, if_pos hk]
  obtain ⟨r, hret, hpc, hrsp, -⟩ := exec_op00EE_pops (s := u) (k := k) (by rw [husp, htsp, hk])
  exact ⟨r, hret, hpc.trans hentry, Fin.ext (hrsp.trans hk)⟩

/-! ### Skips (R124 to R127) -/

/-- Settles O26: families 3 and 4 decode to the skips on NN, whose rows of R25 are the two values of pc. -/
theorem skipOnImmediate : Obligations.SkipOnImmediate :=
  ⟨decodes_of_family 0x3#4 rfl fun w hf => by simp only [decode, hf],
    decodes_of_family 0x4#4 rfl fun w hf => by simp only [decode, hf],
    fun x nn _ => ⟨exec_completes_framed (i := .op3XNN x nn) rfl, exec_completes_framed (i := .op4XNN x nn) rfl⟩⟩

/-- Settles O27: families 5 and 9 decode to the skips on VY, whatever N is, and their rows of R25 are the two values of
pc. -/
theorem skipOnRegister : Obligations.SkipOnRegister :=
  ⟨decodes_of_family 0x5#4 rfl fun w hf => by simp only [decode, hf],
    decodes_of_family 0x9#4 rfl fun w hf => by simp only [decode, hf],
    fun x y _ => ⟨exec_completes_framed (i := .op5XY0 x y) rfl, exec_completes_framed (i := .op9XY0 x y) rfl⟩⟩

/-! ### The default handler (R129) -/

/-- Settles O29: UNHANDLED has no row of R202 and writes pc alone; a word of the unhandled space decodes to it, so the
step advances pc, leaves the latch at None and answers Unhandled. -/
theorem unhandledAdvances : Obligations.UnhandledAdvances := by
  refine ⟨fun op _ => exec_completes_framed (i := .unhandled op) rfl, fun s hrun hfault hpc hword => ?_⟩
  have hdec : decode s.fetch = .unhandled s.fetch := decode_of_unhandledWord hword
  have hstep : step s = .next s.advance := by
    rw [step_eq_exec_decode_fetch hrun hfault hpc, hdec]
    rfl
  refine ⟨hstep, ?_⟩
  rw [stepResult_of_no_fault (s.admitted_iff.mpr ⟨hrun, hfault⟩) hstep hfault, hdec]
  rfl

end Sys2Proof.Safety
end

section
/-! PROOFS. Load, arithmetic, logic, shift and random (41_load_and_alu.md): the words of a row of family 8 decode to its
instruction, the numbers the byte operations leave, and on these rest ImmediateLoadAndAdd, CopyAndLogic, AddWithCarry,
Subtract, Shift and RandomUnderMask. -/

namespace Sys2Proof.Machine

variable (s : State) (x : Reg) (a b : Byte)

/-! ### The byte operations as numbers -/

theorem State.getV_setV_self : (s.setV x a).getV x = a := by
  rw [State.getV_setV, if_pos rfl]

/-- The carry out of a sum of two bytes is its quotient by 256 (R146). -/
theorem carry_toNat : (carry a b).toNat = (a.toNat + b.toNat) / 256 := by
  have ha := a.isLt
  have hb := b.isLt
  unfold carry
  by_cases h : 255 < a.toNat + b.toNat
  · rw [decide_eq_true h, Bool.toNat_true]
    omega
  · rw [decide_eq_false h, Bool.toNat_false]
    omega

/-- A difference of bytes, without a negative number on the way (R147). -/
theorem sub_toNat : (a - b).toNat = (a.toNat + 256 - b.toNat) % 256 := by
  have hb := b.isLt
  rw [BitVec.toNat_sub]
  omega

end Sys2Proof.Machine

namespace Sys2Proof.Safety

open Sys2Proof.Machine Sys2Proof.Laws

/-- A row of family 8 is decided by N (R96, R97). -/
theorem decodes_of_family8 {p : Word} {f : Word → Instr} (n : Nibble) (hp : family p = 0x8#4 ∧ fieldN p = n)
    (h : ∀ w, fieldN w = n → decodeFamily8 w = f w) : Decodes 0xF00F#16 p f := by
  intro w hw
  obtain ⟨hf, hn⟩ := fields_of_and_0xF00F hw
  have h8 : family w = 0x8#4 := hf.trans hp.1
  have hdec : decode w = decodeFamily8 w := by simp only [decode, h8]
  exact hdec.trans (h w (hn.trans hp.2))

/-! ### Without a flag (R140 to R145, R151) -/

/-- Settles O30: families 6 and 7 decode to the load and the sum, which write VX alone. -/
theorem immediateLoadAndAdd : Obligations.ImmediateLoadAndAdd := by
  refine ⟨decodes_of_family 0x6#4 rfl fun w hf => by simp only [decode, hf],
    decodes_of_family 0x7#4 rfl fun w hf => by simp only [decode, hf], fun x nn s => ⟨?load, ?add⟩⟩
  case load => exact ⟨_, rfl, State.getV_setV_self s x nn, rfl, frame_of_exec (i := .op6XNN x nn) rfl rfl⟩
  case add =>
    refine ⟨_, rfl, ?_, rfl, frame_of_exec (i := .op7XNN x nn) rfl rfl⟩
    rw [State.getV_advance, State.getV_setV_self, BitVec.toNat_add]

/-- Settles O31: N from 0 to 3 in family 8 decodes to the copy and the three bitwise operations, which write VX
alone. -/
theorem copyAndLogic : Obligations.CopyAndLogic := by
  refine ⟨decodes_of_family8 0x0#4 ⟨rfl, rfl⟩ fun w hn => by simp only [decodeFamily8, hn],
    decodes_of_family8 0x1#4 ⟨rfl, rfl⟩ fun w hn => by simp only [decodeFamily8, hn],
    decodes_of_family8 0x2#4 ⟨rfl, rfl⟩ fun w hn => by simp only [decodeFamily8, hn],
    decodes_of_family8 0x3#4 ⟨rfl, rfl⟩ fun w hn => by simp only [decodeFamily8, hn], fun x y s => ?_⟩
  refine ⟨⟨_, rfl, State.getV_setV_self s x _, rfl, frame_of_exec (i := .op8XY0 x y) rfl rfl⟩,
    ⟨_, rfl, fun k _ => ?or, rfl, frame_of_exec (i := .op8XY1 x y) rfl rfl⟩,
    ⟨_, rfl, fun k _ => ?and, rfl, frame_of_exec (i := .op8XY2 x y) rfl rfl⟩,
    ⟨_, rfl, fun k _ => ?xor, rfl, frame_of_exec (i := .op8XY3 x y) rfl rfl⟩⟩
  case or => rw [State.getV_advance, State.getV_setV_self, BitVec.getLsbD_or]
  case and => rw [State.getV_advance, State.getV_setV_self, BitVec.getLsbD_and]
  case xor => rw [State.getV_advance, State.getV_setV_self, BitVec.getLsbD_xor]

/-- Settles O35: family C decodes to CXNN, which leaves the byte of this draw under NN in VX and counts the draw. -/
theorem randomUnderMask : Obligations.RandomUnderMask := by
  refine ⟨decodes_of_family 0xC#4 rfl fun w hf => by simp only [decode, hf], fun x nn s => ?_⟩
  have hv : ((s.setV x (s.rnd &&& nn)).drawn.advance).getV x = Config.rnd s.draws &&& nn := State.getV_setV_self s x _
  refine ⟨_, rfl, hv, ?_, rfl, rfl, frame_of_exec (i := .opCXNN x nn) rfl rfl⟩
  rw [hv, BitVec.and_assoc, BitVec.and_not_self]
  exact BitVec.and_zero

/-! ### With a flag (R146 to R150) -/

/-- Settles O32: N = 4 in family 8 decodes to 8XY4, whose carry is written after the sum and so stands in VF in every
case. -/
theorem addWithCarry : Obligations.AddWithCarry := by
  refine ⟨decodes_of_family8 0x4#4 ⟨rfl, rfl⟩ fun w hn => by simp only [decodeFamily8, hn], fun x y s => ?_⟩
  refine ⟨_, rfl, fun (hx : x ≠ VF) => ?sum, ?carry, rfl, frame_of_exec (i := .op8XY4 x y) rfl rfl⟩
  case sum => rw [State.getV_advance, State.getV_setFlag, if_neg hx, State.getV_setV_self, BitVec.toNat_add]
  case carry => rw [State.getV_advance, getV_VF_setFlag, flag_toNat, carry_toNat]

/-- Settles O33: N = 5 and N = 7 in family 8 decode to the two subtractions, whose difference is written after the flag
and so stands in VX in every case. -/
theorem subtract : Obligations.Subtract := by
  refine ⟨decodes_of_family8 0x5#4 ⟨rfl, rfl⟩ fun w hn => by simp only [decodeFamily8, hn],
    decodes_of_family8 0x7#4 ⟨rfl, rfl⟩ fun w hn => by simp only [decodeFamily8, hn], fun x y s => ?_⟩
  refine ⟨⟨_, rfl, ?difference, fun hx => ?flag, rfl, frame_of_exec (i := .op8XY5 x y) rfl rfl⟩,
    ⟨_, rfl, ?differenceFrom, fun hx => ?flagFrom, rfl, frame_of_exec (i := .op8XY7 x y) rfl rfl⟩⟩
  case difference | differenceFrom => rw [State.getV_advance, State.getV_setV_self, sub_toNat]
  case flag | flagFrom => exact (getV_VF_setFlag_setV s hx _ _).trans (flag_decide _)

/-- Settles O34: N = 6 and N = E in family 8 decode to the two shifts, whose result is written after the flag and so
stands in VX in every case. -/
theorem shift : Obligations.Shift := by
  refine ⟨decodes_of_family8 0x6#4 ⟨rfl, rfl⟩ fun w hn => by simp only [decodeFamily8, hn],
    decodes_of_family8 0xE#4 ⟨rfl, rfl⟩ fun w hn => by simp only [decodeFamily8, hn], fun x y s => ?_⟩
  refine ⟨⟨_, rfl, ?right, fun hx => ?lowBit, rfl, frame_of_exec (i := .op8XY6 x y) rfl rfl⟩,
    ⟨_, rfl, ?left, fun hx => ?highBit, rfl, frame_of_exec (i := .op8XYE x y) rfl rfl⟩⟩
  case right =>
    rw [State.getV_advance, State.getV_setV_self, BitVec.toNat_ushiftRight, Nat.shiftRight_eq_div_pow, pow_one]
  case lowBit => rw [State.getV_advance, getV_VF_setFlag_setV s hx, flag_toNat, lowBit_toNat]
  case left =>
    rw [State.getV_advance, State.getV_setV_self, BitVec.toNat_shiftLeft, Nat.shiftLeft_eq, pow_one, Nat.mul_comm]
  case highBit => rw [State.getV_advance, getV_VF_setFlag_setV s hx, flag_toNat, highBit_toNat]

end Sys2Proof.Safety
end

section
/-! PROOFS. The index register, loads and stores (42_index_and_memory.md): the words of a row of family F decode to its
instruction, the digits and the block that stand in memory after a store, and on these rest LoadIndex, AddToIndex,
GlyphAddress, StoreDecimal, StoreBlock and LoadBlock. -/

namespace Sys2Proof.Machine

/-! ### The digits of FX33 (R163) -/

/-- The three digits of a byte, each below 10 and so kept by its byte. -/
theorem decimalDigits_map_toNat (b : Byte) :
    (decimalDigits b).map BitVec.toNat = [b.toNat / 100, b.toNat / 10 % 10, b.toNat % 10] := by
  have hb := b.isLt
  have hlt : b.toNat / 100 < 2 ^ 8 ∧ b.toNat / 10 % 10 < 2 ^ 8 ∧ b.toNat % 10 < 2 ^ 8 := by omega
  obtain ⟨hhundreds, htens, hones⟩ := hlt
  simp only [decimalDigits, List.map_cons, List.map_nil, BitVec.toNat_ofNat, Nat.mod_eq_of_lt hhundreds,
    Nat.mod_eq_of_lt htens, Nat.mod_eq_of_lt hones]

/-- Once the digits of a byte stand in memory from I on, the byte at I + k is digit k. -/
theorem State.readByte_storeBytes_decimalDigits (s : State) (b : Byte) (k : Fin 3) :
    ((s.storeBytes (s.dataAddr 0) (decimalDigits b)).readByte (s.i.toNat + k.val)).toNat =
      [b.toNat / 100, b.toNat / 10 % 10, b.toNat % 10][k.val] := by
  calc ((s.storeBytes (s.dataAddr 0) (decimalDigits b)).readByte (s.i.toNat + k.val)).toNat
      = (decimalDigits b)[k.val].toNat :=
        congrArg BitVec.toNat (s.readByte_storeBytes_inside (s.dataAddr 0) (decimalDigits b) k.val k.isLt)
    _ = ((decimalDigits b).map BitVec.toNat)[k.val] := (List.getElem_map BitVec.toNat).symm
    _ = [b.toNat / 100, b.toNat / 10 % 10, b.toNat % 10][k.val] := by simp only [decimalDigits_map_toNat]

end Sys2Proof.Machine

namespace Sys2Proof.Safety

open Sys2Proof.Machine Sys2Proof.Laws

variable {i : Instr} {s t : State}

/-! ### Words and frames -/

/-- A row of family F is decided by NN (R96, R97). -/
theorem decodes_of_familyF {p : Word} {f : Word → Instr} (b : Byte) (hp : family p = 0xF#4 ∧ fieldNN p = b)
    (h : ∀ w, fieldNN w = b → decodeFamilyF w = f w) : Decodes 0xF0FF#16 p f := by
  refine decodes_of_family_NN 0xF#4 b hp fun w hf hnn => ?_
  have hdec : decode w = decodeFamilyF w := by simp only [decode, hf]
  exact hdec.trans (h w hnn)

/-- Where its row of R202 does not hold, an instruction leaves every byte outside those it stores as it was (R69). -/
theorem keepsBytes_of_exec (h : exec i s = .next t) (hc : faultCondition i s = none) :
    KeepsBytesBut (s.dataAddr 0) (storesBytes i) s t := by
  obtain rfl : effect i s = t := Host.Outcome.next.inj ((exec_eq_effect hc).symm.trans h)
  exact effect_keepsBytes i s

/-! ### The index register (R160 to R162) -/

/-- Settles O36: family A decodes to ANNN, and NNN keeps its value when extended. -/
theorem loadIndex : Obligations.LoadIndex :=
  ⟨decodes_of_family 0xA#4 rfl fun w hf => by simp only [decode, hf],
    fun nnn _ => ⟨_, rfl, imm16_toNat nnn, rfl, frame_of_exec (i := .opANNN nnn) rfl rfl⟩⟩

/-- Settles O37: NN = 1E in family F decodes to FX1E, whose sum of words is the sum of the numbers modulo 2^16. -/
theorem addToIndex : Obligations.AddToIndex := by
  refine ⟨decodes_of_familyF 0x1E#8 ⟨rfl, rfl⟩ fun w hnn => by simp only [decodeFamilyF, hnn], fun x s => ?_⟩
  refine ⟨_, rfl, ?sum, rfl, frame_of_exec (i := .opFX1E x) rfl rfl⟩
  case sum => rw [State.advance_i, State.setI_i, BitVec.toNat_add, State.getV16_toNat]

/-- Settles O38: NN = 29 in family F decodes to FX29; the glyph of a digit ends below 0x200 because FONT_BASE leaves
room for 16 glyphs (D12), and a larger VX is no digit. -/
theorem glyphAddress : Obligations.GlyphAddress := by
  refine ⟨decodes_of_familyF 0x29#8 ⟨rfl, rfl⟩ fun w hnn => by simp only [decodeFamilyF, hnn], fun x s hx => ?_,
    fun x s => exec_opFX29_of_no_digit s x⟩
  have hexec := exec_opFX29_of_digit s x hx
  have haddr := glyphAddr_toNat ⟨(s.getV x).toNat, by omega⟩
  have hbase : fontBase < 0x200 - 80 + 1 := Config.fontBase.isLt
  refine ⟨_, hexec, haddr, ?below, rfl, frame_of_exec hexec (if_neg (by omega))⟩
  case below =>
    rw [State.advance_i, State.setI_i, haddr]
    omega

/-! ### Stores from I on (R163, R164) -/

/-- Settles O39: NN = 33 in family F decodes to FX33, which stores the three digits inside memory and latches
DataAddressFault beyond it. -/
theorem storeDecimal : Obligations.StoreDecimal := by
  refine ⟨decodes_of_familyF 0x33#8 ⟨rfl, rfl⟩ fun w hnn => by simp only [decodeFamilyF, hnn], fun x s hin => ?_,
    fun x s => exec_opFX33_outside s x⟩
  have hexec := exec_opFX33_inside s x hin
  have hc : faultCondition (.opFX33 x) s = none := if_neg (by omega)
  have hdigit := s.readByte_storeBytes_decimalDigits (s.getV x)
  exact ⟨_, hexec, hdigit 0, hdigit 1, hdigit 2, keepsBytes_of_exec hexec hc, rfl, frame_of_exec hexec hc⟩

/-- Settles O40: NN = 55 in family F decodes to FX55, which stores the block V0 to VX inside memory and latches
DataAddressFault beyond it. -/
theorem storeBlock : Obligations.StoreBlock := by
  refine ⟨decodes_of_familyF 0x55#8 ⟨rfl, rfl⟩ fun w hnn => by simp only [decodeFamilyF, hnn], fun x s hin => ?_,
    fun x s => exec_opFX55_outside s x⟩
  have hexec := exec_opFX55_inside s x hin
  have hc : faultCondition (.opFX55 x) s = none := if_neg (by omega)
  exact ⟨_, hexec, fun _ hr => s.readByte_storeBytes_block hr, keepsBytes_of_exec hexec hc, rfl, frame_of_exec hexec hc⟩

/-! ### Loads from I on (R165) -/

/-- Settles O41: NN = 65 in family F decodes to FX65, whose effect inside memory leaves the registers in closed form;
beyond memory it latches DataAddressFault. -/
theorem loadBlock : Obligations.LoadBlock := by
  refine ⟨decodes_of_familyF 0x65#8 ⟨rfl, rfl⟩ fun w hnn => by simp only [decodeFamilyF, hnn], fun x s hin => ?_,
    fun x s => exec_opFX65_outside s x⟩
  have hc : faultCondition (.opFX65 x) s = none := if_neg (by omega)
  exact ⟨effect (.opFX65 x) s, exec_eq_effect hc, loadedRegs_getElem x s.v _, rfl, effect_keepsBut (.opFX65 x) s⟩

end Sys2Proof.Safety
end

section
/-! PROOFS. The display (43_display.md): the effect of DXYN in closed form, what of a drawn state a second DXYN at the same
place reads, and on these rest ClearFrame, DrawSprite and DrawTwiceRestores. -/

namespace Sys2Proof.Safety

open Sys2Proof.Machine Sys2Proof.Laws

variable (x y : Reg) (n : Nibble) (s : State)

/-! ### Clearing (R180) -/

/-- Settles O43: NN = E0 in family 0 decodes to 00E0, which presents the frame with every pixel off. -/
theorem clearFrame : Obligations.ClearFrame :=
  ⟨decodes_of_family_NN 0x0#4 0xE0#8 ⟨rfl, rfl⟩ fun w hf hnn => by simp only [decode, hf, decodeFamily0, hnn],
    fun _ => ⟨_, rfl, Frame.pixel_clear, rfl, rfl, frame_of_exec (i := .op00E0) rfl rfl⟩⟩

/-! ### Drawing once (R181) -/

variable {n s} in
/-- Where the bytes of the sprite are inside memory, DXYN does not fault (R202). -/
theorem faultCondition_opDXYN_inside (hin : n = 0#4 ∨ s.i.toNat + n.toNat - 1 ≤ 0xFFF) :
    faultCondition (.opDXYN x y n) s = none := by
  refine if_neg ?_
  rintro ⟨hn, hout⟩
  rcases hin with rfl | hin
  · exact hn rfl
  · omega

/-- Every pixel is its old value exclusive-or the bit of the sprite there. -/
theorem effect_opDXYN_pixel (v : Fin 32) (u : Fin 64) :
    (effect (.opDXYN x y n) s).pixel v u =
      (s.pixel v u != spriteBit s (s.getV x).toNat (s.getV y).toNat n.toNat v u) :=
  (drawSprite_inverts s _ _ _).pixel v u

/-- VF tells whether some pixel was on under a set bit of the sprite: these are the pixels that go from on to off. -/
theorem effect_opDXYN_VF_eq_ite :
    (effect (.opDXYN x y n) s).getV 15 =
      if ∃ v u, s.pixel v u = true ∧ spriteBit s (s.getV x).toNat (s.getV y).toNat n.toNat v u = true
      then 1#8 else 0#8 := by
  have hgoes_off (v : Fin 32) (u : Fin 64) :
      (s.pixel v u = true ∧ (effect (.opDXYN x y n) s).pixel v u = false) ↔
        (s.pixel v u = true ∧ spriteBit s (s.getV x).toNat (s.getV y).toNat n.toNat v u = true) := by
    refine and_congr_right fun hon => ?_
    simp [effect_opDXYN_pixel, hon]
  rw [effect_opDXYN_VF, flag_decide]
  simp only [hgoes_off]

/-- Settles O44: family D decodes to DXYN, whose effect inside memory is the sprite in closed form; beyond memory it
latches DataAddressFault. -/
theorem drawSprite : Obligations.DrawSprite := by
  refine ⟨decodes_of_family 0xD#4 rfl fun w hf => by simp only [decode, hf], fun x y n s hin => ?_,
    fun x y n s hn => exec_opDXYN_outside s x y n fun h0 => hn (BitVec.eq_of_toNat_eq h0)⟩
  have hVF := effect_opDXYN_VF_eq_ite x y n s
  exact ⟨effect (.opDXYN x y n) s, exec_eq_effect (faultCondition_opDXYN_inside x y hin), effect_opDXYN_pixel x y n s,
    fun hhit => hVF.trans (if_pos hhit), fun hmiss => hVF.trans (if_neg hmiss), rfl, rfl,
    fun _ hr => effect_getV s hr, effect_keepsBut (.opDXYN x y n) s⟩

/-! ### Drawing twice (R181 case 9) -/

/-- A drawing leaves I and memory, and so every sprite, as they were. -/
theorem spriteBit_effect_opDXYN (x0 y0 m : Nat) :
    spriteBit (effect (.opDXYN x y n) s) x0 y0 m = spriteBit s x0 y0 m := rfl

variable {x y} in
/-- With neither coordinate in VF, a second DXYN draws the same sprite at the same place. -/
theorem spriteBit_second_opDXYN (hx : x ≠ 15) (hy : y ≠ 15) :
    let t := effect (.opDXYN x y n) s
    spriteBit t (t.getV x).toNat (t.getV y).toNat n.toNat =
      spriteBit s (s.getV x).toNat (s.getV y).toNat n.toNat := by
  have hgetV {r : Reg} (hr : r ≠ 15) : (effect (.opDXYN x y n) s).getV r = s.getV r :=
    effect_getV s (mt List.mem_singleton.mp hr)
  simp only [spriteBit_effect_opDXYN, hgetV hx, hgetV hy]

/-- Settles O45: the second draw has the bits of the first. An exclusive-or taken twice gives each pixel back, and a pixel
is on under a set bit after the first draw exactly if it was off before. -/
theorem drawTwiceRestores : Obligations.DrawTwiceRestores := by
  intro x y n s t hx hy hin hfirst
  have hc : faultCondition (.opDXYN x y n) s = none := faultCondition_opDXYN_inside x y hin
  obtain rfl : effect (.opDXYN x y n) s = t := Host.Outcome.next.inj ((exec_eq_effect hc).symm.trans hfirst)
  have hbits := spriteBit_second_opDXYN n s hx hy
  refine ⟨_, exec_eq_effect (faultCondition_opDXYN_inside x y hin), fun v u => ?pixel, ?flag⟩
  case pixel =>
    rw [effect_opDXYN_pixel, hbits, effect_opDXYN_pixel, Bool.bne_self_right]
  case flag =>
    have hone_ne_zero : 1#8 ≠ 0#8 := by decide
    rw [effect_opDXYN_VF_eq_ite, hbits, hone_ne_zero.ite_eq_left_iff]
    refine exists_congr fun v => exists_congr fun u => and_congr_left fun hbit => ?_
    rw [effect_opDXYN_pixel, hbit, Bool.bne_true, Bool.not_eq_true']

end Sys2Proof.Safety
end

section
/-! PROOFS. The keypad and the timers (44_keypad_and_timers.md): the words of a row of family E decode to its
instruction, FX0A's scan finds the highest key down, the buzzer sounds while ST is not 0, and on these rest SkipOnKey,
PollForKey and TimerCopies. -/

namespace Sys2Proof.Machine

variable {s : State}

/-! ### The key scan and the buzzer (R192, R213) -/

/-- The highest key down is the one FX0A's scan finds (D14). -/
theorem State.scanKeys_eq_some {k : Fin 16} (hdown : s.keyDown k.val = true)
    (hup : ∀ j : Fin 16, k < j → s.keyDown j.val = false) : s.scanKeys = some k := by
  cases hscan : s.scanKeys with
  | none => simp [s.scanKeys_none hscan k.val k.isLt] at hdown
  | some m =>
    obtain ⟨hm, habove⟩ := s.scanKeys_some m hscan
    rcases lt_trichotomy m k with hlt | rfl | hgt
    · simp [habove k.val hlt k.isLt] at hdown
    · rfl
    · simp [hup m hgt] at hm

theorem buzzerActive_iff : buzzerActive s = true ↔ s.st ≠ 0#8 := by
  rw [buzzerActive, decide_eq_true_iff, Nat.pos_iff_ne_zero]
  exact not_congr (BitVec.toNat_eq (y := 0#8)).symm

end Sys2Proof.Machine

namespace Sys2Proof.Safety

open Sys2Proof.Machine Sys2Proof.Laws

/-! ### Words and rows -/

/-- A row of family E is decided by NN (R96, R97). -/
theorem decodes_of_familyE {p : Word} {f : Word → Instr} (b : Byte) (hp : family p = 0xE#4 ∧ fieldNN p = b)
    (h : ∀ w, fieldNN w = b → decodeFamilyE w = f w) : Decodes 0xF0FF#16 p f := by
  refine decodes_of_family_NN 0xE#4 b hp fun w hf hnn => ?_
  have hdec : decode w = decodeFamilyE w := by simp only [decode, hf]
  exact hdec.trans (h w hnn)

/-- A skip where b is false, as EXA1's row of R25 has it, with the value for true first. -/
theorem skipPc_eq_false (s : State) (b : Bool) :
    skipPc s (b = false) = if b = true then s.pc + 2#16 else s.pc + 4#16 := by
  cases b <;> rfl

/-! ### The keypad (R190 to R192) -/

/-- Settles O46: NN = 9E and NN = A1 in family E decode to the two skips, whose rows of R25 are the two values of pc for
a key number; a larger VX is none, and both latch KeyIndexFault (D7). -/
theorem skipOnKey : Obligations.SkipOnKey := by
  refine ⟨decodes_of_familyE 0x9E#8 ⟨rfl, rfl⟩ fun w hnn => by simp only [decodeFamilyE, hnn],
    decodes_of_familyE 0xA1#8 ⟨rfl, rfl⟩ fun w hnn => by simp only [decodeFamilyE, hnn], fun x s hx => ?key,
    fun x s hx => ⟨exec_opEX9E_of_no_key s x hx, exec_opEXA1_of_no_key s x hx⟩⟩
  case key =>
    have hc : ¬15 < (s.getV x).toNat := by omega
    obtain ⟨t, hexec, hpc, hframe⟩ := exec_completes_framed (i := .opEXA1 x) (if_neg hc)
    exact ⟨exec_completes_framed (i := .opEX9E x) (if_neg hc), t, hexec, hpc.trans (skipPc_eq_false s _), hframe⟩

/-- Settles O47: NN = 0A in family F decodes to FX0A, whose scan finds no key in the vector 0 and else the highest key
down, a number that fits a byte. -/
theorem pollForKey : Obligations.PollForKey := by
  refine ⟨decodes_of_familyF 0x0A#8 ⟨rfl, rfl⟩ fun w hnn => by simp only [decodeFamilyF, hnn],
    fun x s hz => exec_opFX0A_of_none s x (s.scanKeys_eq_none_iff.mpr hz), fun x s k hdown hup => ?_⟩
  have hexec := exec_opFX0A_of_some s x k (State.scanKeys_eq_some hdown hup)
  refine ⟨_, hexec, ?number, rfl, frame_of_exec hexec rfl⟩
  case number =>
    rw [State.getV_advance, State.getV_setV_self, BitVec.toNat_ofNat]
    exact Nat.mod_eq_of_lt (by omega)

/-! ### The timers (R193 to R195, R213) -/

/-- Settles O48: NN = 07, 15 and 18 in family F decode to the three copies; FX07 writes VX alone, FX15 DT and FX18 ST,
and the buzzer sounds for any ST but 0 (R213). -/
theorem timerCopies : Obligations.TimerCopies :=
  ⟨decodes_of_familyF 0x07#8 ⟨rfl, rfl⟩ fun w hnn => by simp only [decodeFamilyF, hnn],
    decodes_of_familyF 0x15#8 ⟨rfl, rfl⟩ fun w hnn => by simp only [decodeFamilyF, hnn],
    decodes_of_familyF 0x18#8 ⟨rfl, rfl⟩ fun w hnn => by simp only [decodeFamilyF, hnn], fun x s =>
    ⟨⟨_, rfl, State.getV_setV_self s x s.dt, rfl, frame_of_exec (i := .opFX07 x) rfl rfl⟩,
      ⟨_, rfl, rfl, rfl, frame_of_exec (i := .opFX15 x) rfl rfl⟩,
      ⟨_, rfl, rfl, rfl, buzzerActive_iff, frame_of_exec (i := .opFX18 x) rfl rfl⟩⟩⟩

end Sys2Proof.Safety
end

section
/-! PROOFS. The transactions of the host and their results (60_exceptions.md): what a step, a tick and a load do on each
side of their guards, the fields each host command writes, and on these rest StepTransaction, FaultedMachineIsFrozen,
RunStateTable, TimersCountDown and KeysAndFrameCommands. -/

namespace Sys2Proof.Machine

variable {s t : State}

/-! ### A step and its result (R205, R206) -/

/-- A step that is not admitted changes nothing. -/
theorem step_of_not_admitted (h : ¬(s.runState = .playing ∧ s.fault = none)) : step s = .next s := by
  rw [step, if_neg (mt s.admitted_iff.mp h)]

theorem stepResult_of_not_admitted (h : ¬(s.runState = .playing ∧ s.fault = none)) : stepResult s = some .idle := by
  rw [stepResult, if_neg (mt s.admitted_iff.mp h)]

/-- A step from a pc no fetch can use latches FetchFault and changes nothing else (D5). -/
theorem step_of_pc_beyond (hadm : s.admitted = true) (hpc : 0x0FFE < s.pc.toNat) :
    step s = .next { s with fault := some .fetchFault } := by
  rw [step, if_pos hadm, if_neg (mt s.canFetch_iff.mp (by omega)), raise_eq]

/-- A step that is admitted and leaves a cause in the latch returns that fault. -/
theorem stepResult_of_fault {c : FaultCause} (hadm : s.admitted = true) (hstep : step s = .next t)
    (hfault : t.fault = some c) : stepResult s = some (.fault c) := by
  simp only [stepResult, hadm, hstep, hfault, if_true]

/-! ### A tick of the timers (R218) -/

theorem countDown_toNat (b : Byte) : (countDown b).toNat = b.toNat - 1 := by
  unfold countDown
  split
  · bv_omega
  · omega

theorem tickTimers_of_admitted (h : s.admitted = true) :
    tickTimers s = { s with dt := countDown s.dt, st := countDown s.st } := if_pos h

theorem tickTimers_of_not_admitted (h : ¬(s.runState = .playing ∧ s.fault = none)) : tickTimers s = s :=
  if_neg (mt s.admitted_iff.mp h)

theorem tickTimers_runState (s : State) : (tickTimers s).runState = s.runState := by
  unfold tickTimers
  split <;> rfl

/-! ### A load (R244) -/

theorem loadRom_fault (rom : List Byte) (s : State) : (loadRom rom s).fault = s.fault := by
  unfold loadRom
  split <;> rfl

end Sys2Proof.Machine

namespace Sys2Proof.Safety

open Sys2Proof.Machine

variable {s t : State}

/-! ### The run state after a transaction (R208) -/

/-- `pause` writes the run state alone, as its row of R208 says (R209). -/
theorem pause_eq (s : State) : pause s = { s with runState := runStateAfter .pause s } := by
  cases s with
  | mk v i pc mem stk sp dt st fb keys redraw runState fault draws => cases runState <;> rfl

/-- `resume` writes the run state alone, as its row of R208 says (R210). -/
theorem resume_eq (s : State) : resume s = { s with runState := runStateAfter .resume s } := by
  cases s with
  | mk v i pc mem stk sp dt st fb keys redraw runState fault draws => cases runState <;> rfl

/-- The row of `load` in R208: Playing where the load succeeds, and no change where it fails (D24). -/
theorem runStateAfter_load (rom : List Byte) (s : State) :
    runStateAfter (.load rom) s = if s.runState = .ready ∧ rom.length ≤ 3584 then .playing else s.runState := by
  cases hr : s.runState <;> simp [runStateAfter, hr]

theorem loadRom_runState (rom : List Byte) (s : State) :
    (loadRom rom s).runState = runStateAfter (.load rom) s := by
  rw [runStateAfter_load]
  split
  · next h => rw [loadRom_of_fits h.1 h.2]
  · next h => rw [loadRom_of_not_fits h]

/-- No instruction writes the run state, nor does a fault. -/
theorem exec_runState {i : Instr} (h : exec i s = .next t) : t.runState = s.runState := by
  rcases exec_cases h with ⟨c, -, rfl⟩ | ⟨-, rfl⟩
  · rfl
  · exact effect_keepsBut i s .runState (by cases i <;> simp [writesParts])

theorem step_runState (h : step s = .next t) : t.runState = s.runState := by
  rcases step_cases s with ⟨-, hstep⟩ | ⟨-, -, hstep⟩ | ⟨-, -, hstep⟩ <;> rw [hstep] at h
  · cases h
    rfl
  · cases h
    rfl
  · exact exec_runState h

/-! ### The frames of the host commands -/

/-- A state that differs from s at most in the fields the host commands write keeps every part but those of a list that
names the changed ones. -/
theorem keepsBut_hostFields {w : List Part} (s : State) {d b : Byte} {k : Word} {f : Bool} {r : RunState}
    (hdelay : .delay ∉ w → d = s.dt := by simp) (hsound : .sound ∉ w → b = s.st := by simp)
    (hkeys : .keys ∉ w → k = s.keys := by simp) (hredraw : .redraw ∉ w → f = s.redraw := by simp)
    (hrunState : .runState ∉ w → r = s.runState := by simp) :
    KeepsBut w s { s with dt := d, st := b, keys := k, redraw := f, runState := r } := by
  intro p hp
  cases p with
  | delay => exact hdelay hp
  | sound => exact hsound hp
  | keys => exact hkeys hp
  | redraw => exact hredraw hp
  | runState => exact hrunState hp
  | stack => exact ⟨rfl, fun _ => rfl⟩
  | memory => exact fun _ => rfl
  | pixels => exact fun _ _ => rfl
  | index | pc | fault | draws => rfl

theorem frame_runState (s : State) (r : RunState) :
    KeepsRegsBut [] s { s with runState := r } ∧ KeepsBut [.runState] s { s with runState := r } :=
  ⟨fun _ _ => rfl, keepsBut_hostFields s⟩

/-! ### The statements -/

/-- Settles O8: outside the admission and beyond the fetch bound the step is its guard; else it is the fetched
instruction, which honours its row of R202. -/
theorem stepTransaction : Obligations.StepTransaction := by
  refine fun s => ⟨fun h => ⟨step_of_not_admitted h, stepResult_of_not_admitted h⟩, ?beyond, ?fetched⟩
  case beyond =>
    intro hrun hfault hpc
    have hadm := s.admitted_iff.mpr ⟨hrun, hfault⟩
    have hstep := step_of_pc_beyond hadm hpc
    exact ⟨hstep, stepResult_of_fault hadm hstep rfl⟩
  case fetched =>
    rintro hrun hfault hpc i rfl
    have hadm := s.admitted_iff.mpr ⟨hrun, hfault⟩
    have hstep : step s = exec (decode s.fetch) s := step_eq_exec_decode_fetch hrun hfault hpc
    obtain ⟨hrow, hno_row⟩ := exec_honoursRow (decode s.fetch) s
    refine ⟨fun c hc => ?fault, fun hc => ?completes⟩
    case fault =>
      have hlatched := hstep.trans (hrow c hc)
      exact ⟨hlatched, stepResult_of_fault hadm hlatched rfl⟩
    case completes =>
      obtain ⟨t, hexec, hkept⟩ := hno_row hc
      have hnext := hstep.trans hexec
      have hclear := hkept.trans hfault
      refine ⟨⟨t, hexec, hnext, hclear⟩, ?_⟩
      exact (stepResult_of_no_fault hadm hnext hclear).trans (apply_ite some _ _ _).symm

/-- Settles O10: a latched fault closes the guard of `step` and of `tick_timers`, and no host command but `init` writes
the latch. -/
theorem faultedMachineIsFrozen : Obligations.FaultedMachineIsFrozen := by
  intro s hfault
  have hidle : ¬(s.runState = .playing ∧ s.fault = none) := fun h => hfault h.2
  have hstep : transact .step s = .next s := step_of_not_admitted hidle
  have htick : transact .tickTimers s = .next s := congrArg Host.Outcome.next (tickTimers_of_not_admitted hidle)
  refine ⟨hstep, stepResult_of_not_admitted hidle, htick, fun tx htx => ?_, _, rfl, rfl⟩
  cases tx with
  | init => exact absurd rfl htx
  | step => exact ⟨s, hstep, rfl⟩
  | tickTimers => exact ⟨s, htick, rfl⟩
  | load rom => exact ⟨_, rfl, loadRom_fault rom s⟩
  | pause => exact ⟨_, congrArg Host.Outcome.next (pause_eq s), rfl⟩
  | resume => exact ⟨_, congrArg Host.Outcome.next (resume_eq s), rfl⟩
  | setKeys | quit | frameConsumed => exact ⟨_, rfl, rfl⟩

/-- Settles O50: row by row of R208; `step` and `tick_timers` never write the run state, and `pause`, `resume` and
`quit` write nothing else. -/
theorem runStateTable : Obligations.RunStateTable := by
  refine ⟨fun tx s t h => ?cell, fun tx s htx => ?frame⟩
  case cell =>
    cases tx with
    | step => exact step_runState h
    | load rom =>
      cases h
      exact loadRom_runState rom s
    | tickTimers =>
      cases h
      exact tickTimers_runState s
    | pause =>
      cases h
      exact congrArg State.runState (pause_eq s)
    | resume =>
      cases h
      exact congrArg State.runState (resume_eq s)
    | init | setKeys | quit | frameConsumed =>
      cases h
      rfl
  case frame =>
    rcases htx with rfl | rfl | rfl
    · exact ⟨_, congrArg Host.Outcome.next (pause_eq s), frame_runState s _⟩
    · exact ⟨_, congrArg Host.Outcome.next (resume_eq s), frame_runState s _⟩
    · exact ⟨_, rfl, frame_runState s .quit⟩

/-- Settles O49: while admitted both timers count down in numbers, so ST is above 0 after a tick if it was above 1
before; otherwise the tick is its guard. -/
theorem timersCountDown : Obligations.TimersCountDown := by
  refine ⟨fun s hrun hfault => ?counts, fun s h => ?idle⟩
  case counts =>
    have htick := tickTimers_of_admitted (s.admitted_iff.mpr ⟨hrun, hfault⟩)
    refine ⟨_, congrArg Host.Outcome.next htick, countDown_toNat s.dt, countDown_toNat s.st, ?buzzer, fun _ _ => rfl,
      keepsBut_hostFields s⟩
    case buzzer =>
      rw [buzzerActive, decide_eq_true_iff, countDown_toNat]
      omega
  case idle => exact congrArg Host.Outcome.next (tickTimers_of_not_admitted (not_and_or.mpr h))

/-- Settles O55: each command is an update of its one field, in every state. -/
theorem keysAndFrameCommands : Obligations.KeysAndFrameCommands := fun s =>
  ⟨fun _ => ⟨_, rfl, rfl, fun _ _ => rfl, keepsBut_hostFields s⟩,
    _, rfl, rfl, fun _ _ => rfl, keepsBut_hostFields s⟩

end Sys2Proof.Safety
end

section
/-! PROOFS. Reset and loading (70_reset_and_hazards.md): what memory reads after `init`, the results of a load that fails
and the frame of one that succeeds, and on these rest InitResets and LoadPlacesRom. -/

namespace Sys2Proof.Safety

open Sys2Proof.Machine

variable {s : State} {rom : List Byte}

/-! ### The state after `init` (R37, R241) -/

theorem readByte_initialise (s : State) (a : Nat) : (initialise s).readByte a = background a := rfl

/-- After `init` the machine is Ready, so neither `step` nor `tick_timers` is admitted (R206, R218). -/
theorem initialise_not_admitted (s : State) :
    ¬((initialise s).runState = .playing ∧ (initialise s).fault = none) := fun h => nomatch h.1

/-- Settles O51: `init` gives the reset state whatever state it starts from; no byte of memory is listed, so every byte
reads as the reset contents, and Ready closes the guard of `step` and of `tick_timers`. -/
theorem initResets : Obligations.InitResets := by
  intro s
  have hidle := initialise_not_admitted s
  refine ⟨initialise s, rfl, fun r => Vector.getElem_replicate r.isLt, rfl, rfl, ?font, ?zeros,
    fun k => Vector.getElem_replicate k.isLt, rfl, rfl, rfl, fun y x => Frame.pixel_clear y x, rfl, rfl, rfl, rfl,
    step_of_not_admitted hidle, congrArg Host.Outcome.next (tickTimers_of_not_admitted hidle)⟩
  case font => exact fun k hk => (readByte_initialise s _).trans (background_font k hk)
  case zeros => exact fun a ha => (readByte_initialise s a).trans (background_outside_font ha)

/-! ### A load (R244, R245) -/

theorem loadResult_of_too_long (hr : s.runState = .ready) (hlen : 3584 < rom.length) :
    loadResult rom s = .romTooLarge := by
  rw [loadResult, if_neg (not_not.mpr hr)]
  exact if_pos hlen

theorem loadResult_of_not_ready (hr : s.runState ≠ .ready) : loadResult rom s = .loadRefused := if_pos hr

/-- A load that fails is a transaction without an effect. -/
theorem transact_load_of_not_fits (h : ¬(s.runState = .ready ∧ rom.length ≤ 3584)) :
    transact (.load rom) s = .next s := congrArg Host.Outcome.next (loadRom_of_not_fits h)

/-- Storing bytes, setting pc and changing the run state, as a load does, keep every other part. -/
theorem keepsBut_storeBytes_pc_runState (s : State) (a : Nat) (bs : List Byte) (pc : Word) (r : RunState) :
    KeepsBut [.memory, .pc, .runState] s { s.storeBytes a bs with pc := pc, runState := r } := by
  intro p hp
  cases p with
  | memory | pc | runState => simp at hp
  | stack => exact ⟨rfl, fun _ => rfl⟩
  | pixels => exact fun _ _ => rfl
  | index | delay | sound | redraw | keys | fault | draws => rfl

/-- Settles O54: a load that succeeds stores the ROM from 0x200 on, which reads back byte by byte, and writes only pc and
the run state beside it; a ROM too long and a machine not Ready are the two ways to fail. -/
theorem loadPlacesRom : Obligations.LoadPlacesRom := by
  refine ⟨fun rom s hr hlen => ?loaded, fun rom s hr hlen => ?tooLong, fun rom s hr => ?refused⟩
  case loaded =>
    exact ⟨loadResult_eq_loaded_iff.mpr ⟨hr, hlen⟩, _, congrArg Host.Outcome.next (loadRom_of_fits hr hlen),
      s.readByte_storeBytes_inside 0x200 rom, s.readByte_storeBytes_outside 0x200 rom, rfl, rfl, fun _ _ => rfl,
      keepsBut_storeBytes_pc_runState s 0x200 rom _ _⟩
  case tooLong =>
    exact ⟨loadResult_of_too_long hr hlen, transact_load_of_not_fits fun h => absurd h.2 (not_le.mpr hlen)⟩
  case refused => exact ⟨loadResult_of_not_ready hr, transact_load_of_not_fits fun h => hr h.1⟩

end Sys2Proof.Safety
end

section
/-! PROOFS. The listing of memory (log 18): a canonical listing holds just the cells that read otherwise than the reset
contents, so the bytes read fix its members, and as its addresses rise its members fix the list. On these rests
MemoryListingIsCanonical. -/

namespace Sys2Proof.Machine

/-! ### The cells listed and the bytes read -/

theorem Memory.read_of_mem {m : Memory} {c : Host.Cell} (hm : m.Pairwise (fun c d => c.1 < d.1)) (hc : c ∈ m) :
    m.read c.1 = c.2 := by
  induction m with
  | nil => exact nomatch hc
  | cons d m ih =>
    obtain ⟨hd, hm⟩ := List.pairwise_cons.mp hm
    rcases List.mem_cons.mp hc with rfl | hc
    · exact if_pos rfl
    · exact (if_neg (hd c hc).ne').trans (ih hm hc)

/-- In any listing: a byte that differs from the reset contents is read from a cell listed. -/
theorem Memory.mem_of_read_ne_background {m : Memory} {a : Nat} (h : m.read a ≠ background a) : (a, m.read a) ∈ m := by
  induction m with
  | nil => exact absurd rfl h
  | cons d m ih =>
    obtain ⟨k, b⟩ := d
    by_cases hk : a = k
    · simp [Memory.read, hk]
    · have hread : Memory.read ((k, b) :: m) a = Memory.read m a := if_neg hk
      rw [hread] at h ⊢
      exact List.mem_cons_of_mem _ (ih h)

/-- The cells of a canonical listing, said by what it reads. -/
theorem Memory.mem_iff_read {m : Memory} (hm : m.wf) (c : Host.Cell) :
    c ∈ m ↔ c.1 < Config.memSize ∧ m.read c.1 = c.2 ∧ c.2 ≠ background c.1 := by
  obtain ⟨hrising, hcells⟩ := hm
  constructor
  · intro hc
    exact ⟨(hcells c hc).1, Memory.read_of_mem hrising hc, (hcells c hc).2⟩
  · rintro ⟨-, hread, hne⟩
    have hc : (c.1, m.read c.1) ∈ m := Memory.mem_of_read_ne_background (hread ▸ hne)
    rwa [hread] at hc

end Sys2Proof.Machine

namespace Sys2Proof.Safety

open Sys2Proof.Machine

/-- Settles O15: read alike inside memory, the two listings have the same cells (`Memory.mem_iff_read`), in the same
rising order. -/
theorem memoryListingIsCanonical : Obligations.MemoryListingIsCanonical := by
  intro m n hm hn hread
  refine List.Pairwise.eq_of_mem_iff (r := InvImage (· < ·) Prod.fst) hm.1 hn.1 fun c => ?_
  rw [Memory.mem_iff_read hm, Memory.mem_iff_read hn]
  exact and_congr_right fun hc => by rw [hread c.1 hc]

end Sys2Proof.Safety
end
